-- ==== Sys2Proof/Word.lean ====
section
/-! DEFINITION. Word types and index types of Kegor (spec 00 R5-R7, 01 R19, R22). -/

namespace Sys2Proof

/-- One byte. -/
abbrev Byte := BitVec 8
/-- A 32-bit word: setup registers, FP32 values, unit registers. -/
abbrev W32 := BitVec 32
/-- A 64-bit word: core registers, descriptor words Qn (R7). -/
abbrev W64 := BitVec 64
/-- The 256 data bits of a code block (R156). -/
abbrev BlockData := BitVec 256

/-- Global core number 64 × tower + core (R19); also the number of the slice above the core. -/
abbrev CoreId := Fin 512
/-- Tower T0-T7. -/
abbrev TowerId := Fin 8
/-- Die number: 0-7 towers, 8 IO-A, 9 IO-B (Table 17.1). -/
abbrev DieId := Fin 10
/-- Channel CH0-CH3 of a slice. -/
abbrev ChanId := Fin 4
/-- DRAM layer L0-L7 (R21). -/
abbrev LayerId := Fin 8
/-- Near-bank unit of a slice (R239). -/
abbrev UnitId := Fin 64
/-- Logical or physical array group (R56). -/
abbrev GroupId := Fin 8
/-- Burril link index (Table 11.7). -/
abbrev LinkId := Fin 14
/-- PCIe function: 0 the PF, n VF n (R322). -/
abbrev FnId := Fin 16
/-- Context number (Table 0.4). -/
abbrev CtxId := Fin 256
/-- Partition number (R322). -/
abbrev PartId := Fin 16
/-- Module Ethernet port number (R352). -/
abbrev PortId := Fin 32
/-- Firmware processor number (Table 14.1). -/
abbrev ProcId := Fin 12
/-- Point-of-load stage: 0-7 towers, 8 IO-A, 9 IO-B, 10 standby (Table 1.1). -/
abbrev StageId := Fin 11
/-- CXL port: 0 port A on IO-A, 1 port B on IO-B (R227). -/
abbrev FarPort := Fin 2
/-- Mailbox instance: 0 PF BAR0, 1 management connector (R466). -/
abbrev MboxId := Fin 2

/-- The bits [lo+n-1:lo] of a word, as a number. -/
def bits {w : Nat} (x : BitVec w) (lo n : Nat) : Nat := (x.toNat >>> lo) % 2 ^ n

/-- Bit i of a word. -/
def bit {w : Nat} (x : BitVec w) (i : Nat) : Bool := x.getLsbD i

end Sys2Proof
end

