-- ==== Sys2Proof/Syntax.lean ====
section
/-! DEFINITION. The commands Kegor takes: one constructor per row of the opcode table, in the table's order. -/

namespace Sys2Proof

/-! ## Operand types -/

/-- The issue queues of Table 4.1. -/
inductive Queue where
  | g (n : GroupId)
  | vec
  | mov
  | nb
  | syn
  | col
  deriving DecidableEq, Repr

/-- Fields of TLOAD (Table 4.6). -/
structure TloadF where
  group : GroupId
  first : BitVec 4
  countM1 : BitVec 4
  srcBuf : BitVec 8
  offReg : BitVec 5
  strideReg : BitVec 5
  expBuf : BitVec 8
  wfmt : BitVec 3
  deriving DecidableEq, Repr

/-- Fields of PASS (Table 4.6). -/
structure PassF where
  group : GroupId
  shape : BitVec 2
  wfmt : BitVec 3
  s8 : Bool
  afmt : BitVec 2
  init : BitVec 2
  keep : Bool
  sound : Bool
  outlier : Bool
  mReg : BitVec 5
  kb : BitVec 5
  nReg : BitVec 5
  deriving DecidableEq, Repr

/-- Fields of FCFG (Table 4.6). -/
structure FcfgF where
  group : GroupId
  actBuf : BitVec 8
  actOffReg : BitVec 5
  expBuf : BitVec 8
  expOffReg : BitVec 5
  strideReg : BitVec 5
  deriving DecidableEq, Repr

/-- Fields of DCFG (Table 4.6). -/
structure DcfgF where
  group : GroupId
  outBuf : BitVec 8
  outOffReg : BitVec 5
  ostrideReg : BitVec 5
  biasBuf : BitVec 8
  biasOffReg : BitVec 5
  deriving DecidableEq, Repr

/-- Fields of OCFG (Table 5.2). -/
structure OcfgF where
  group : GroupId
  sib : BitVec 4
  pair : Bool
  recBuf : BitVec 8
  recOffReg : BitVec 5
  listBuf : BitVec 8
  listOffReg : BitVec 5
  s8 : Bool
  expBuf : BitVec 8
  off : Bool
  deriving DecidableEq, Repr

/-- Fields of SCFG (Table 5.3). -/
structure ScfgF where
  group : GroupId
  tag : BitVec 12
  log2n : BitVec 5
  srcBuf : BitVec 8
  srcOffReg : BitVec 5
  srcStrideReg : BitVec 5
  srcBf16 : Bool
  refReg : BitVec 5
  off : Bool
  deriving DecidableEq, Repr

/-- Fields of a vector instruction (Table 4.7). -/
structure VecF where
  dBuf : BitVec 8
  dReg : BitVec 5
  aBuf : BitVec 8
  aReg : BitVec 5
  bBuf : BitVec 8
  bReg : BitVec 5
  lenReg : BitVec 5
  type : BitVec 2
  bs : Bool
  deriving DecidableEq, Repr

/-- Fields of MLOAD and MSTORE (Table 4.10). -/
structure MoveF where
  buf : BitVec 8
  offReg : BitVec 5
  addrReg : BitVec 5
  lenReg : BitVec 5
  sfmt : BitVec 5
  dfmt : BitVec 5
  sr : Bool
  auxReg : BitVec 5
  s8 : Bool
  tclass : BitVec 2
  deriving DecidableEq, Repr

/-- Fields of MCOPY (Table 4.10). -/
structure McopyF where
  dBuf : BitVec 8
  dReg : BitVec 5
  sBuf : BitVec 8
  sReg : BitVec 5
  lenReg : BitVec 5
  sfmt : BitVec 5
  dfmt : BitVec 5
  sr : Bool
  auxReg : BitVec 5
  s8 : Bool
  deriving DecidableEq, Repr

/-- Fields of NBLAUNCH (Table 4.13). -/
structure NbLaunchF where
  stBuf : BitVec 8
  tgtReg : BitVec 5
  maskReg : BitVec 5
  progReg : BitVec 5
  argReg : BitVec 5
  classB : Bool
  fixed : Bool
  tclass : BitVec 2
  deriving DecidableEq, Repr

/-- A syndrome of an array, drain or feeder fault (R509). -/
structure Syndrome where
  check : BitVec 4
  pgroup : GroupId
  array : Fin 16
  line : Fin 32
  plane : Fin 8
  deriving DecidableEq, Repr

/-- Coordinates of a code block within a slice (R156): channel, layer half, bank, row, block. -/
structure Coord where
  ch : ChanId
  half : Fin 2
  bank : Fin 16
  row : Fin 4224
  blk : Fin 64
  deriving DecidableEq, Repr

/-- What starts a channel retrain (R178). -/
inductive RetrainCause where
  | drift
  | laneErrors
  | cmdParity
  | mpRequest
  deriving DecidableEq, Repr

/-- A repair unit (Table 6.12): a row, a sub-array of 512 rows, or a bank. -/
inductive RepairUnit where
  | row (ch : ChanId) (half : Fin 2) (bank : Fin 16) (row : Fin 4096)
  | subArray (ch : ChanId) (half : Fin 2) (bank : Fin 16) (sub : Fin 8)
  | bank (ch : ChanId) (half : Fin 2) (bank : Fin 16)
  deriving DecidableEq, Repr

/-- Why a channel is lost (R164, R182, R188). -/
inductive ChanLossCause where
  | over110
  | untrainable
  | uncorrectable
  deriving DecidableEq, Repr

/-- A change that advances the map epoch (R221). -/
inductive EpochCause where
  | repair
  | channelLoss
  | substitution
  | towerFence
  | farPort
  | spreadChange
  deriving DecidableEq, Repr

/-- What the MP finds when it trains a CXL port (R227, R231). -/
inductive FarTrain where
  | up (log2width : Fin 5) (rate : Fin 3) (cap : Nat)
  | outsideSubset
  | down
  deriving DecidableEq, Repr

/-- A page of a context's cache: sequence, stream index, page index (R269, R274). -/
structure PageKey where
  ctx : CtxId
  seqId : W32
  stream : Nat
  page : Nat
  deriving DecidableEq, Repr

/-- What a DMA read of host memory answers (R337, R344). -/
inductive HostRead where
  | words (ws : List W64)
  | failed
  deriving DecidableEq, Repr

/-- A source of log and rate records (Table 17.1: source_kind, source_index). -/
structure Source where
  kind : Fin 6
  index : Nat
  deriving DecidableEq, Repr

/-- What the first DATA packet of a member carries of its collective (R372): op, dtype, redop and count. -/
structure CollHead where
  op : Nat
  dtype : Nat
  redop : Nat
  count : Nat
  deriving DecidableEq, Repr

/-- The transport header of a received packet that passed the checks of R359 (Table 13.3), whether it met congestion (CE), its payload,
the collective's head when it is a member's first (R372), and whether it carries data sent from a poisoned block (Table 13.7). -/
structure Packet where
  srcModule : BitVec 15
  dstModule : BitVec 15
  path : BitVec 8
  flags : BitVec 8
  conn : W32
  psn : W32
  a : W64
  b : W32
  ts : W32
  ce : Bool
  payload : List W64
  head : Option CollHead
  poison : Bool
  deriving DecidableEq, Repr

/-- A link flit (Table 11.3). -/
structure Flit where
  dest : Fin 10
  tclass : BitVec 2
  seqNo : BitVec 12
  ackSeq : BitVec 12
  credits : BitVec 20
  trans : BitVec 46
  deriving DecidableEq, Repr

/-- Fields of a bank micro-operation (R250). -/
structure MicroF where
  a : BitVec 4
  b : BitVec 4
  c : BitVec 4
  d : BitVec 4
  m : BitVec 10
  deriving DecidableEq, Repr

/-- A sensor (Table 16.1): core pair member, DRAM layer, base die, IO die. -/
inductive SensorId where
  | core (c : CoreId) (n : Fin 2)
  | layer (c : CoreId) (l : LayerId)
  | base (t : TowerId) (n : Fin 4)
  | io (d : Fin 2) (n : Fin 4)
  deriving DecidableEq, Repr

/-- A hot spot: the place a sensor or sensor pair watches (R421). -/
inductive HotSpot where
  | core (c : CoreId)
  | layer (c : CoreId) (l : LayerId)
  | base (t : TowerId) (n : Fin 4)
  | io (d : Fin 2) (n : Fin 4)
  deriving DecidableEq, Repr

/-- What the headwater finds in one image slot (R393, R463). -/
structure SlotCheck where
  sigOk : Bool
  validated : Bool
  rollback : W32
  version : W32
  deriving DecidableEq, Repr

/-- Tamper inputs in the bit order of Table 18.3. -/
inductive TamperInput where
  | lid
  | seating
  | mesh
  | voltage
  | clock
  | temperature
  deriving DecidableEq, Repr

/-- Why a tower is fenced (R305, R317, R416). -/
inductive TowerFenceCause where
  | deadLink
  | lockLoss
  | stageFault
  deriving DecidableEq, Repr

/-- A power domain (Table 15.1). -/
inductive Domain where
  | coreIsland (c : CoreId)
  | nearBank (t : TowerId)
  | slice (c : CoreId)
  | processor (p : ProcId)
  | port (n : Fin 5)
  deriving DecidableEq, Repr

/-- The kind and outcome of a fault a processor restarts for (R396). -/
inductive RestartCause where
  | watchdog
  | parity
  | assertion
  deriving DecidableEq, Repr

/-- A record of the network transport kept by a requester: one notice the driver or a peer asked for. -/
inductive PaceReason where
  | thermalHold
  | powerCap
  | linkDegraded
  deriving DecidableEq, Repr

/-- A frame the NP answers for the fabric address (R357). -/
inductive AddrFrame where
  | arp
  | neighborDiscovery
  | icmpEcho
  deriving DecidableEq, Repr

/-- One member of a plan: how a DOTS-style command names its registers is `MicroF`. The commands. -/
inductive Instr where
  -- scalar and control (R104-R107, R129)
  | nop (c : CoreId)
  | add (c : CoreId) (d a b : BitVec 5)
  | sub (c : CoreId) (d a b : BitVec 5)
  | mul (c : CoreId) (d a b : BitVec 5)
  | and (c : CoreId) (d a b : BitVec 5)
  | or (c : CoreId) (d a b : BitVec 5)
  | xor (c : CoreId) (d a b : BitVec 5)
  | shl (c : CoreId) (d a b : BitVec 5)
  | shr (c : CoreId) (d a b : BitVec 5)
  | sar (c : CoreId) (d a b : BitVec 5)
  | min (c : CoreId) (d a b : BitVec 5)
  | max (c : CoreId) (d a b : BitVec 5)
  | slt (c : CoreId) (d a b : BitVec 5)
  | sltu (c : CoreId) (d a b : BitVec 5)
  | addi (c : CoreId) (d a : BitVec 5) (imm : BitVec 32)
  | muli (c : CoreId) (d a : BitVec 5) (imm : BitVec 32)
  | andi (c : CoreId) (d a : BitVec 5) (imm : BitVec 32)
  | ori (c : CoreId) (d a : BitVec 5) (imm : BitVec 32)
  | xori (c : CoreId) (d a : BitVec 5) (imm : BitVec 32)
  | shli (c : CoreId) (d a : BitVec 5) (imm : BitVec 32)
  | shri (c : CoreId) (d a : BitVec 5) (imm : BitVec 32)
  | sari (c : CoreId) (d a : BitVec 5) (imm : BitVec 32)
  | mini (c : CoreId) (d a : BitVec 5) (imm : BitVec 32)
  | maxi (c : CoreId) (d a : BitVec 5) (imm : BitVec 32)
  | slti (c : CoreId) (d a : BitVec 5) (imm : BitVec 32)
  | sltui (c : CoreId) (d a : BitVec 5) (imm : BitVec 32)
  | lil (c : CoreId) (d : BitVec 5) (imm : BitVec 48)
  | lih (c : CoreId) (d : BitVec 5) (imm : BitVec 48)
  | lds (c : CoreId) (d : BitVec 5) (buf : BitVec 8) (off : BitVec 5) (disp : BitVec 16) (wide : Bool)
  | sts (c : CoreId) (s : BitVec 5) (buf : BitVec 8) (off : BitVec 5) (disp : BitVec 16) (wide : Bool)
  | csrr (c : CoreId) (d : BitVec 5) (csr : BitVec 12)
  | csrw (c : CoreId) (s : BitVec 5) (csr : BitVec 12)
  | beq (c : CoreId) (a b : BitVec 5) (off : BitVec 24)
  | bne (c : CoreId) (a b : BitVec 5) (off : BitVec 24)
  | blt (c : CoreId) (a b : BitVec 5) (off : BitVec 24)
  | bge (c : CoreId) (a b : BitVec 5) (off : BitVec 24)
  | bltu (c : CoreId) (a b : BitVec 5) (off : BitVec 24)
  | bgeu (c : CoreId) (a b : BitVec 5) (off : BitVec 24)
  | jmp (c : CoreId) (off : BitVec 24)
  | call (c : CoreId) (off : BitVec 24)
  | ret (c : CoreId)
  | endItem (c : CoreId) (sreg : BitVec 5)
  | illegalInstruction (c : CoreId) (word : W64)
  -- matrix
  | tload (c : CoreId) (f : TloadF)
  | tloadComplete (c : CoreId) (g : GroupId)
  | pass (c : CoreId) (f : PassF)
  | passComplete (c : CoreId) (g : GroupId)
  | fcfg (c : CoreId) (f : FcfgF)
  | dcfg (c : CoreId) (f : DcfgF)
  | ocfg (c : CoreId) (f : OcfgF)
  | scfg (c : CoreId) (f : ScfgF)
  | queueIssue (c : CoreId) (q : Queue)
  -- vector
  | vadd (c : CoreId) (f : VecF)
  | vsub (c : CoreId) (f : VecF)
  | vmul (c : CoreId) (f : VecF)
  | vfma (c : CoreId) (f : VecF)
  | vmax (c : CoreId) (f : VecF)
  | vmin (c : CoreId) (f : VecF)
  | vcopy (c : CoreId) (f : VecF)
  | vfill (c : CoreId) (f : VecF)
  | vexp2 (c : CoreId) (f : VecF)
  | vrcp (c : CoreId) (f : VecF)
  | vrsq (c : CoreId) (f : VecF)
  | vcvt (c : CoreId) (f : VecF)
  | vsum (c : CoreId) (f : VecF)
  | vrmax (c : CoreId) (f : VecF)
  | vsumsq (c : CoreId) (f : VecF)
  | vrot (c : CoreId) (f : VecF)
  | vectorComplete (c : CoreId)
  -- moves; `idx` of MOVE_COMPLETE is the place among the moves in flight, oldest 0
  | mload (c : CoreId) (f : MoveF)
  | mstore (c : CoreId) (f : MoveF)
  | mcopy (c : CoreId) (f : McopyF)
  | moveComplete (c : CoreId) (idx : Fin 8) (farPoison : Bool)
  -- near-bank port
  | nblaunch (c : CoreId) (f : NbLaunchF)
  | nbpoll (c : CoreId) (d tgtReg : BitVec 5) (unit : UnitId)
  | nbflush (c : CoreId) (addrReg lenReg : BitVec 5)
  | nbinv (c : CoreId) (buf : BitVec 8)
  -- synchronisation, collectives, waits
  | semadd (c : CoreId) (semReg valReg : BitVec 5)
  | semwait (c : CoreId) (semReg valReg : BitVec 5) (consume : Bool)
  | semwaitSatisfied (c : CoreId)
  | semrd (c : CoreId) (d semReg : BitVec 5)
  | fence (c : CoreId) (mask : BitVec 13)
  | bufstate (c : CoreId) (buf : BitVec 8) (st : BitVec 2)
  | flagset (c : CoreId) (maskReg : BitVec 5)
  | flagclr (c : CoreId) (maskReg : BitVec 5)
  | flagwait (c : CoreId) (maskReg : BitVec 5) (all : Bool)
  | cntadd (c : CoreId) (cnt : Fin 16) (valReg : BitVec 5) (mask : BitVec 13)
  | cntwait (c : CoreId) (cnt : Fin 16) (valReg : BitVec 5)
  | coll (c : CoreId) (descBuf : BitVec 8) (descReg : BitVec 5)
  | collComplete (c : CoreId) (idx : Fin 2)
  | wait (c : CoreId) (event : BitVec 3) (a b : BitVec 5)
  | waitEvent (c : CoreId)
  | waitLimitExpiry (c : CoreId)
  -- work items, pre-emption, faults, soundings, idle
  | workItemStart (c : CoreId)
  | workItemFault (c : CoreId)
  | preemptRequest (c : CoreId)
  | workItemResume (c : CoreId)
  | arrayFault (c : CoreId) (g : GroupId) (syn : Syndrome)
  | activeParityCheck (c : CoreId) (g : GroupId) (array : Fin 16) (bad : Option (Fin 32 × Fin 8))
  | thermalEmergency (c : CoreId) (allowanceNs : Nat)
  | thermalRelease (c : CoreId)
  | sampleComplete (c : CoreId)
  | samplerFault (c : CoreId)
  | soundingRecord (t : TowerId)
  | escalationSignal (t : TowerId) (ctx : CtxId) (tag : BitVec 12)
  | workItemEnd (t : TowerId)
  | idleRetentionTimer (c : CoreId)
  | idleOffTimer (c : CoreId)
  | coreWake (c : CoreId)
  | clockSwitch (c : CoreId)
  -- slice memory
  | refreshInterval (c : CoreId) (ch : ChanId)
  | channelRead (c : CoreId) (a : Coord)
  | channelWrite (c : CoreId) (a : Coord) (data : BlockData) (mask : BitVec 32) (poison : Bool)
  | rowCloseTimer (c : CoreId) (ch : ChanId) (half : Fin 2) (bank : Fin 16)
  | bandChange (c : CoreId) (l : LayerId)
  | throttleStep (c : CoreId) (ch : ChanId)
  | protectedHoldEnd (c : CoreId) (ch : ChanId) (mpRelease : Bool)
  | weirWindow (c : CoreId)
  | weirCommitGo (fn : FnId)
  | eddyWrite (c : CoreId) (a : Coord) (data : BlockData) (mask : BitVec 32)
  | eddyFlush (c : CoreId) (ch : ChanId) (idx : Fin 16)
  | eddyAgeTimeout (c : CoreId) (ch : ChanId)
  | atomicAdd (c : CoreId) (a : Coord) (word : Fin 8) (wide : Bool) (val : W64)
  | atomicCas (c : CoreId) (a : Coord) (word : Fin 8) (wide : Bool) (expect new : W64)
  | retrainTrigger (c : CoreId) (ch : ChanId) (cause : RetrainCause)
  | retrainComplete (c : CoreId) (ch : ChanId) (failing : List (Fin 308))
  | repairStart (c : CoreId) (u : RepairUnit)
  | repairRowStep (c : CoreId) (entry : Fin 64)
  | channelLost (c : CoreId) (ch : ChanId) (cause : ChanLossCause)
  | selfRefreshEnter (c : CoreId)
  | selfRefreshExit (c : CoreId)
  | lineRestore (region : W32) (line : Nat) (src : HostRead)
  | scrubRow (c : CoreId)
  | codeTestEnable (fn : FnId) (value : W32)
  | codeTestWriteRaw (fn : FnId)
  | codeTestWriteEncoded (fn : FnId)
  | codeTestReadRaw (fn : FnId)
  | codeTestReadFull (fn : FnId)
  | codeTestReadActivation (fn : FnId)
  | codeTestOpDone
  -- maps, far tier, spillway; `poisoned` of FILL_DONE lists the frame's blocks that the device returned poisoned
  | epochChangeStart
  | epochFlip
  | towerMigration (t : TowerId)
  | spreadMapChange (fn : FnId) (value : W32)
  | farLinkDown (p : FarPort)
  | farPortRetrain (p : FarPort) (r : FarTrain)
  | farEventPoll (p : FarPort) (recs : List W64)
  | spillPage (k : PageKey)
  | spillCopyDone (k : PageKey)
  | spillPinTimeout (k : PageKey)
  | fillPage (k : PageKey)
  | fillDone (k : PageKey) (poisoned : List Nat)
  -- near-bank launches and bank programs
  | launchAdmit (c : CoreId)
  | nbLaunchComplete (c : CoreId)
  | nbStatusPoll (c : CoreId)
  | nbEnd (c : CoreId) (u : UnitId) (f : MicroF)
  | smark (c : CoreId) (u : UnitId) (f : MicroF)
  | loop (c : CoreId) (u : UnitId) (f : MicroF)
  | jnz (c : CoreId) (u : UnitId) (f : MicroF)
  | nbAddi (c : CoreId) (u : UnitId) (a b : BitVec 4) (imm : BitVec 18)
  | lui (c : CoreId) (u : UnitId) (a : BitVec 4) (imm : BitVec 22)
  | alu (c : CoreId) (u : UnitId) (f : MicroF)
  | ldw (c : CoreId) (u : UnitId) (f : MicroF)
  | stw (c : CoreId) (u : UnitId) (f : MicroF)
  | gather (c : CoreId) (u : UnitId) (f : MicroF)
  | ldr (c : CoreId) (u : UnitId) (f : MicroF)
  | str (c : CoreId) (u : UnitId) (f : MicroF)
  | cvt (c : CoreId) (u : UnitId) (f : MicroF)
  | rload (c : CoreId) (u : UnitId) (f : MicroF)
  | kvcfg (c : CoreId) (u : UnitId) (f : MicroF)
  | rotcfg (c : CoreId) (u : UnitId) (f : MicroF)
  | dots (c : CoreId) (u : UnitId) (f : MicroF)
  | sacc (c : CoreId) (u : UnitId) (f : MicroF)
  | vop (c : CoreId) (u : UnitId) (f : MicroF)
  | vred (c : CoreId) (u : UnitId) (f : MicroF)
  | segmentGrant (c : CoreId) (u : UnitId)
  | segmentLimit (c : CoreId) (u : UnitId)
  | nbRefreshSuspend (c : CoreId) (ch : ChanId)
  | classbMeterLimit (c : CoreId) (l : LayerId)
  | fixedWindowClose (c : CoreId) (u : UnitId)
  | nbUnitFault (c : CoreId) (u : UnitId) (syn : W32)
  -- key/value cache
  | pageAllocate (ctx : CtxId) (seqId : W32)
  | kvWaitTimeout (ctx : CtxId) (seqId : W32)
  | tailCountRaise (k : PageKey)
  | layerPlanBuild (ctx : CtxId) (step : W32)
  | pageMigrate (k : PageKey)
  | pageMigrateCommit (k : PageKey)
  | lowWaterSpill (ctx : CtxId) (c : CoreId)
  | ringBlockLanded (ctx : CtxId) (seqId : W32)
  | tableBuilderDone (tableId : W32) (ok : Bool)
  | tableDrained (tableId : W32)
  -- clocks, sync, links
  | clockUnlock (d : DieId)
  | clockRelock (d : DieId)
  | clockUnlockTimeout (d : DieId)
  | syncRound
  | fwSyncReq (fn : FnId) (tag : W32)
  | syncRoundClose
  | rateChange (c : CoreId) (q : Fin 17)
  | flitReceive (l : LinkId) (rev : Bool) (f : Flit)
  | flitCrcError (l : LinkId) (rev : Bool) (seqNo : BitVec 12)
  | linkTrain (l : LinkId) (failing : List (Fin 66))
  | linkReplayWindow (l : LinkId) (laneErrs : List (Fin 66 × Nat))
  | linkQuiesce (l : LinkId)
  | towerFence (t : TowerId) (cause : TowerFenceCause)
  -- start
  | powerOn (millivolts : Nat) (latches : BitVec 3)
  | perstDeassert
  | perstAssert
  | startupReady
  | headwaterBoot (selftest : Bool) (a b : SlotCheck) (retestPass : Bool)
  -- host rings
  | ringHelloGo (fn : FnId) (hello : HostRead)
  | doorbellPoll (ctx : CtxId) (tail head : W32)
  | ringWake (fn : FnId) (value : W32)
  | descFetch (ctx : CtxId) (desc : List W64)
  | descNop (ctx : CtxId) (seq : W32)
  | work (ctx : CtxId) (seq : W32)
  | step (ctx : CtxId) (seq : W32)
  | copy (ctx : CtxId) (seq : W32) (src : HostRead)
  | seqOpen (ctx : CtxId) (seq : W32)
  | seqEnd (ctx : CtxId) (seq : W32)
  | seqSet (ctx : CtxId) (seq : W32)
  | seqNarrow (ctx : CtxId) (seq : W32)
  | sound (ctx : CtxId) (seq : W32)
  | tableCreate (ctx : CtxId) (seq : W32)
  | tableDestroy (ctx : CtxId) (seq : W32)
  | ctxCreate (fn : FnId) (seq : W32) (block kvCfg : HostRead)
  | ctxDestroy (fn : FnId) (seq : W32) (ctx : BitVec 8)
  | ctxAdopt (fn : FnId) (seq : W32) (ctx : BitVec 8) (block : HostRead)
  | ctxReset (fn : FnId) (seq : W32) (ctx : BitVec 8) (block : HostRead)
  | regionCreate (fn : FnId) (seq : W32) (desc : HostRead)
  | regionDestroy (fn : FnId) (seq : W32) (region : W32)
  | partSet (fn : FnId) (seq : W32) (part : BitVec 4) (cores : HostRead) (semFirst semCount : BitVec 16)
  | completionWrite (ctx : CtxId)
  | moderationTimer (ctx : CtxId)
  | msixUnmask (fn : FnId) (vector : Fin 64)
  | heartbeatCheck (fn : FnId) (word : HostRead)
  | hostLost (fn : FnId)
  | contextPark (ctx : CtxId)
  | flr (fn : FnId)
  | vfEnable (numVfs : Fin 16)
  | pcieLinkDown
  -- network
  | portLinkUp (p : PortId)
  | portLinkDown (p : PortId)
  | portTrain (p : PortId) (partner400 pcsUp : Bool)
  | fabricAnnounce (p : PortId)
  | addressResolution (p : PortId) (k : AddrFrame)
  | data (p : PortId) (pk : Packet)
  | ack (p : PortId) (pk : Packet)
  | probe (p : PortId) (pk : Packet)
  | pace (p : PortId) (pk : Packet)
  | withdraw (p : PortId) (pk : Packet)
  | connect (p : PortId) (pk : Packet)
  | connectAck (p : PortId) (pk : Packet)
  | close (p : PortId) (pk : Packet)
  | submit (p : PortId) (pk : Packet)
  | complete (p : PortId) (pk : Packet)
  | connectRetry (conn : W32)
  | connectionIdleTimeout (conn : W32)
  | pathProbeTimer (peer : BitVec 15) (p : PortId)
  | pathSilenceTimeout (peer : BitVec 15) (p : PortId)
  | pathRetryTimer (peer : BitVec 15) (p : PortId)
  | ackTimer (conn : W32)
  | retransmitTimeout (conn : W32) (psn : W32)
  | ccRound (conn : W32) (delayUs : Nat)
  | collTimeout (comm collSeq : W32)
  | withdrawMemoryExpiry (comm collSeq : W32)
  | paceHintSend (comm : W32) (reason : PaceReason) (latenessNs : Nat)
  -- schedulers, firmware, power
  | queueFill (t : TowerId)
  | priorityPreempt (c : CoreId)
  | rotateWork (c : CoreId)
  | coreFenceRequeue (c : CoreId)
  | watchdogExpire (p : ProcId) (cause : RestartCause)
  | processorResume (p : ProcId) (imageOk journalOk : Bool)
  | dumpArchive (p : ProcId) (slot : Fin 2)
  | fwHoldClear (fn : FnId) (value : W32)
  | fwDumpAck (fn : FnId) (value : W32)
  | fwImageCommit (fn : FnId) (value : W32)
  | processorWake (p : ProcId)
  | avsRaise (s : StageId) (millivolts : Nat)
  | avsAck (s : StageId)
  | avsAckTimeout (s : StageId)
  | stageFault (s : StageId) (faultStatus : BitVec 16)
  | capSample (powerW : Nat)
  | strictPowerUp (d : Domain) (step : Fin 4) (ready : Bool)
  -- thermal; readings and predictions in 0.25 degC
  | sensorSample (s : SensorId) (conversion : Option Int)
  | sensorDisagree (h : HotSpot)
  | sensorReturn (h : HotSpot)
  | modelUpdate (h : HotSpot) (predicted : Int)
  | predictionStale (h : HotSpot)
  | fastStop (t : TowerId) (h : HotSpot) (allowanceNs : Nat)
  | fastStopRelease (t : TowerId)
  | ioDieLimit (d : Fin 2)
  | coolantCheck
  | flowSample (flow : Nat) (inlet outlet : Int)
  | suddenStop
  | orderlyStop
  | pldmUpdate (sensor : Fin 9)
  | thermalSummaryTimer
  -- errors and recovery
  | logRecord (s : Source)
  | mirrorWrite
  | mirrorSignalTimer
  | recoveryDequeue
  | errLogAck (fn : FnId) (value : W32)
  | errLogSel (fn : FnId) (value : W32)
  | errFenceClear (fn : FnId) (value : W32)
  | errSafeReq (fn : FnId) (value : W32)
  | safeEnter (cause : Fin 14)
  -- security mailbox
  | getCert (m : MboxId) (tag : W32) (index : BitVec 8) (offset : W32)
  | quote (m : MboxId) (tag : W32) (nonce : BitVec 256) (mask : BitVec 16)
  | sessionOpen (m : MboxId) (tag : W32) (nonce : BitVec 256) (ciphertext : List Byte)
  | sessionClose (m : MboxId) (tag sid : W32) (counter : W64) (authentic : Bool)
  | ownerSet (m : MboxId) (tag sid : W32) (counter : W64) (authentic : Bool) (key signature : List Byte)
  | tamperSet (m : MboxId) (tag sid : W32) (counter : W64) (authentic : Bool) (mask : BitVec 16) (signature : List Byte)
  | extend (m : MboxId) (tag sid : W32) (counter : W64) (authentic : Bool) (reg : BitVec 8) (value : BitVec 512)
  | cakInstall (m : MboxId) (tag sid : W32) (counter : W64) (authentic : Bool) (ports : W32) (ckn : BitVec 128) (cak : BitVec 256)
  | bundleWrite (m : MboxId) (tag sid : W32) (counter : W64) (authentic : Bool) (offset : W32) (bytes : List Byte)
  | bundleCheck (m : MboxId) (tag sid : W32) (counter : W64) (authentic : Bool)
  | dumpRead (m : MboxId) (tag sid : W32) (counter : W64) (authentic : Bool) (entry : BitVec 16) (offset : W32)
  | unknownMailboxCommand (m : MboxId) (tag : W32) (code : BitVec 16)
  | sessionIdleTimeout (m : MboxId)
  | decapsulationKeyExpiry (m : MboxId)
  | entropyHealthFail
  | tamperTrip (i : TamperInput)
  | eraseComplete
  -- supply, registers and the rest
  | inputUndervoltage (millivolts : Nat)
  | inputOvervoltage (millivolts : Nat)
  | unmappedAccess (fn : FnId) (offset : Nat) (isWrite : Bool)
  | registerWrite (fn : FnId) (offset : Nat) (byteEnables : BitVec 4) (value : W32)
  | hotReset
  | inputOvervoltageReturn (millivolts : Nat)
  | farLinkUp (p : FarPort) (log2width : Fin 5) (rate : Fin 3) (cap : Nat)
  | migrationPinTimeout (k : PageKey)
  | priorityFlowControlFrame (p : PortId) (prio : Fin 8) (pause : Bool)
  | mkaFrame (p : PortId) (establishes : Bool)
  | secureAssociationKeyRotation (p : PortId)
  | discardedFrame (p : PortId)
  | rateRecordEmit (c : CoreId)
  deriving DecidableEq, Repr

end Sys2Proof
end

