-- ==== Sys2Proof/Decode.lean ====
section
/-! DEFINITION. The command a word spells. No row of the opcode table gives bits, so no word spells one (log entry 1). -/

namespace Sys2Proof

/-- The command that the bits of a table row spell: none, since every row's fields are empty. -/
def decodeTableWord (_nbits _w : Nat) : Option Instr := none

end Sys2Proof
end

