-- ==== Sys2Proof/Config.lean ====
section
/-! DEFINITION. What an implementation fixes, and the free values: constants without a body, one for each value that
the spec leaves open (log entry 2). Nothing can evaluate them; a statement holds whatever they are. -/

namespace Sys2Proof.Config

/-- The ordering code of the module (R1, R2): 1 DXK-8T512-W, 2 DXK-8T512-WS. -/
opaque orderCode : BitVec 2
/-- FW_ID_STEPPING and the serial number (Table 19.4, reset "—"). -/
opaque stepping : W32
opaque serial : W64
/-- A fresh 16-bit draw of the stochastic generator (R41, R136), by draw number. -/
opaque draw : Nat → BitVec 16
/-- Where the order of FP32 additions is not specified (R39, R111, R371): which two terms are added next. -/
opaque addPick : Nat → Nat → Nat
/-- The tree of a reduction, which depends only on the length (R111): which two terms are added at each step. -/
opaque vecTree : Nat → Nat → Nat
/-- A byte of core store whose contents are undefined or lost (R85, R99, R405), by draw number and address. -/
opaque undefByte : Nat → Nat → Byte
/-- Cycles a queue's head waited before it issued (R103), by draw number: cycle counts are not modelled. -/
opaque stallCycles : Nat → Nat
/-- The error, in units in the last place, of an approximate function on an operand (R112, R250): reduced to its bound. -/
opaque approxErr : Nat → W32 → Int
/-- A rotary phasor, cosine and sine, as a unit holds it (R251): rope_base, rope_scale, rope_pairs, pair, position, and rows since
the last direct evaluation. -/
opaque phasor : W32 → W32 → Nat → Nat → W32 → Nat → W32 × W32
/-- The maximum of no words (VRED of length 0, Table 9.5 states none), by draw number. -/
opaque maxOfNone : Nat → W32
/-- Cycles counted by the island of a source that is no core, at a time (R307, R309). -/
opaque islandCycles : Nat → Nat → Nat → Nat
/-- The cursor at which a pre-emption stops a pass, vector or move instruction (R79, R133), by draw number. -/
opaque preemptCursor : Nat → Nat
/-- Which of several pages, cores or queues is chosen where the spec leaves the choice open, by draw number. -/
opaque choice : Nat → Nat
/-- Which of several minimal next hops a route set uses (R311), by die and destination. -/
opaque route : Nat → Nat → Nat
/-- The smoothed round-trip time [µs] after a sample (R363 gives no filter): old value, sample. -/
opaque smooth : Nat → Nat → Nat
/-- Argument words and lists that the schedulers write into the work area and to which the spec gives no value (R284, R389), by draw
number: the queries' address, the partial area, the semaphore, the configuration block, the entries of a stream list. -/
opaque planWord : Nat → W64
/-- Dump contents of a firmware processor (R397): restart, word. -/
opaque dumpWord : Nat → Nat → Nat → W32
/-- Words of a thermal summary, whose layout and figures the spec does not give (R443), by draw number. -/
opaque summaryWord : Nat → W64
/-- SHAKE256 with a 512-bit output (R464). -/
opaque shake256 : List Byte → BitVec 512
/-- The certificates of the identity chain (R466): index, byte. -/
opaque certByte : Nat → Nat → Byte
/-- Length in bytes of a certificate. -/
opaque certLen : Nat → Nat
/-- An ML-DSA-65 signature under the identity key (R467), over a message. -/
opaque attestSign : List Byte → List Byte
/-- Whether an ML-DSA-65 signature by a public key verifies over a message (R469): key, message, signature. -/
opaque verify : List Byte → List Byte → List Byte → Bool
/-- An ML-KEM-768 encapsulation key made fresh (R467), by draw number. -/
opaque encapKey : Nat → List Byte
/-- The shared secret that a decapsulation key, by draw number, recovers from a ciphertext (R468). -/
opaque decap : Nat → List Byte → List Byte
/-- A payload sealed with AES-256-GCM (R466): session key, message counter, payload; the tag follows. -/
opaque sealWith : BitVec 512 → W64 → List Byte → List Byte
/-- The bytes that a measurement register is extended with at a start or a change (Table 18.1 gives the contents and no layout):
register, and the numbers it records. -/
opaque measured : Nat → List Nat → List Byte
/-- The measurement of an image (R395): slot, processor kind (1 SP, 2 MP, 3 TS, 4 NP). -/
opaque imageHash : Bool → Nat → List Byte
/-- SEC_TAMPER_CFG.lockable of a module that is not DXK-8T512-WS (Table 18.7, reset "—"). -/
opaque lockable : BitVec 6
/-- Where a module's supply thresholds lie within the ranges of Table 20.3: 0 turn-on, 1 turn-off, 2 overvoltage. -/
opaque threshold : Nat → Nat
/-- What a bundle written into a slot holds: whether its signature verifies, its validated flag, rollback value and version (R393); the
spec gives no bundle layout. -/
opaque bundleSig : List (Nat × Byte) → Bool
opaque bundleValidated : List (Nat × Byte) → Bool
opaque bundleRoll : List (Nat × Byte) → W32
opaque bundleVersion : List (Nat × Byte) → W32
/-- Whether bytes written at an offset show a manifest without the validated flag (R469). -/
opaque showsUnvalidated : Nat → List Byte → Bool
/-- Event codes of sync and rate records, to which Table 17.4 gives none (R308, R309): 0 opening, 1 answer, 2 closing, 3 rate. -/
opaque syncCode : Nat → BitVec 16
/-- The sampler's fixed addition order (R146): which two terms are added at each step, by the number of terms. -/
opaque sampTree : Nat → Nat → Nat
/-- A figure of a sample whose y16 or yr is not finite while y is finite (R147 gives none), by draw number. -/
opaque rhoOpen : Nat → W32
/-- What a retrain leaves in a block of a reserve row it used for patterns (R179, R207): draw number, block. -/
opaque trainPattern : Nat → Nat → BitVec 288

end Sys2Proof.Config
end

