-- ==== Sys2Proof/Machine/Float.lean ====
section
/-! DEFINITION. Floating-point values held exactly, their encodings, and the roundings that chapter 02 names. -/

namespace Sys2Proof.Machine

/-- A floating-point value: a finite value is ±m × 2^e. -/
inductive FVal where
  | nan
  | inf (neg : Bool)
  | fin (neg : Bool) (m : Nat) (e : Int)
  deriving DecidableEq, Repr

/-- What the codes with all exponent bits set mean: IEEE infinities and NaNs, the OCP E4M3 NaN, or ordinary values. -/
inductive Special where
  | ieee
  | nanTop
  | none
  deriving DecidableEq, Repr

/-- A binary floating-point format: exponent bits, fraction bits, bias, special codes. -/
structure FFmt where
  eb : Nat
  mb : Nat
  bias : Nat
  special : Special
  deriving DecidableEq, Repr

/-- binary32 (R35). -/
def FFmt.f32 : FFmt := { eb := 8, mb := 23, bias := 127, special := .ieee }
/-- BF16: the upper half of binary32 (R35). -/
def FFmt.bf16 : FFmt := { eb := 8, mb := 7, bias := 127, special := .ieee }
/-- OCP FP8 E4M3. -/
def FFmt.e4m3 : FFmt := { eb := 4, mb := 3, bias := 7, special := .nanTop }
/-- OCP FP8 E5M2. -/
def FFmt.e5m2 : FFmt := { eb := 5, mb := 2, bias := 15, special := .ieee }
/-- OCP FP6 E2M3. -/
def FFmt.e2m3 : FFmt := { eb := 2, mb := 3, bias := 1, special := .none }
/-- OCP FP6 E3M2. -/
def FFmt.e3m2 : FFmt := { eb := 3, mb := 2, bias := 3, special := .none }
/-- OCP FP4 E2M1. -/
def FFmt.e2m1 : FFmt := { eb := 2, mb := 1, bias := 1, special := .none }

/-- The exponent of the least unit in the last place. -/
def FFmt.umin (f : FFmt) : Int := 1 - (f.bias : Int) - f.mb

/-- The code of the largest finite magnitude. -/
def FFmt.maxFinite (f : FFmt) : Nat :=
  match f.special with
  | .ieee => (2 ^ f.eb - 1) * 2 ^ f.mb - 1
  | .nanTop => 2 ^ (f.eb + f.mb) - 2
  | .none => 2 ^ (f.eb + f.mb) - 1

/-- The code of NaN: the quiet NaN of R35, or the E4M3 NaN. Formats without NaN never encode one. -/
def FFmt.nanCode (f : FFmt) : Nat :=
  match f.special with
  | .ieee => (2 ^ f.eb - 1) * 2 ^ f.mb + 2 ^ (f.mb - 1)
  | _ => 2 ^ (f.eb + f.mb) - 1

/-- The value of a code. -/
def FFmt.dec (f : FFmt) (c : Nat) : FVal :=
  let neg := (c >>> (f.eb + f.mb)) % 2 == 1
  let ex := (c >>> f.mb) % 2 ^ f.eb
  let fr := c % 2 ^ f.mb
  if f.special = .ieee ∧ ex = 2 ^ f.eb - 1 then
    if fr = 0 then .inf neg else .nan
  else if f.special = .nanTop ∧ c % 2 ^ (f.eb + f.mb) = 2 ^ (f.eb + f.mb) - 1 then .nan
  else if ex = 0 then .fin neg fr f.umin
  else .fin neg (2 ^ f.mb + fr) ((ex : Int) - f.bias - f.mb)

/-- Rounding modes: nearest-even, toward the larger or smaller magnitude (R44), stochastic with a 16-bit draw (R41). -/
inductive Rnd where
  | rne
  | up
  | down
  | sr (r : Nat)
  deriving DecidableEq, Repr

/-- ⌊log2 (n / d)⌋ for positive n and d. -/
def ilog2Q (n d : Nat) : Int :=
  let k : Int := (n.log2 : Int) - d.log2
  if 0 ≤ k then (if d * 2 ^ k.toNat ≤ n then k else k - 1)
  else (if d ≤ n * 2 ^ (-k).toNat then k else k - 1)

/-- n / d scaled by 2^k, as a fraction. -/
def scaleQ (n d : Nat) (k : Int) : Nat × Nat :=
  if 0 ≤ k then (n * 2 ^ k.toNat, d) else (n, d * 2 ^ (-k).toNat)

/-- The magnitude of ±n/d rounded to an integer (R41). Stochastic rounding works on the signed value. -/
def roundQ (mode : Rnd) (neg : Bool) (n d : Nat) : Nat :=
  let q := n / d
  let r := n % d
  match mode with
  | .rne => if d < 2 * r ∨ (2 * r = d ∧ q % 2 = 1) then q + 1 else q
  | .up => if r = 0 then q else q + 1
  | .down => q
  | .sr x =>
    if r = 0 then q
    else if neg then (if x < (d - r) * 65536 / d then q else q + 1)
    else (if x < r * 65536 / d then q + 1 else q)

/-- The magnitude code of ±(n/d) × 2^e in a format, not yet limited to its range. -/
def FFmt.magCode (f : FFmt) (mode : Rnd) (neg : Bool) (n d : Nat) (e : Int) : Nat :=
  if n = 0 then 0
  else
    let l := ilog2Q n d + e
    let u := if l - f.mb < f.umin then f.umin else l - f.mb
    let nd := scaleQ n d (e - u)
    (u - f.umin).toNat * 2 ^ f.mb + roundQ mode neg nd.1 nd.2

/-- Sign bit and magnitude code as one code. -/
def FFmt.join (f : FFmt) (neg : Bool) (mag : Nat) : Nat := (if neg then 2 ^ (f.eb + f.mb) else 0) + mag

/-- Encoding of ±(n/d) × 2^e by arithmetic: beyond the range gives infinity (R35, R40). -/
def FFmt.encQ (f : FFmt) (mode : Rnd) (neg : Bool) (n d : Nat) (e : Int) : Nat :=
  let mag := f.magCode mode neg n d e
  f.join neg (if mag ≤ f.maxFinite then mag else f.maxFinite + 1)

/-- Encoding on store: finite values beyond the range saturate, infinities saturate unless the target keeps them (R45).
The second component tells whether a saturation is counted. -/
def FFmt.satQ (f : FFmt) (mode : Rnd) (neg : Bool) (n d : Nat) (e : Int) : Nat × Bool :=
  let mag := f.magCode mode neg n d e
  if mag ≤ f.maxFinite then (f.join neg mag, false) else (f.join neg f.maxFinite, true)

/-- Encoding of a value by arithmetic, in an IEEE format. -/
def FFmt.enc (f : FFmt) (mode : Rnd) (v : FVal) : Nat :=
  match v with
  | .nan => f.nanCode
  | .inf neg => f.join neg (f.maxFinite + 1)
  | .fin neg m e => f.encQ mode neg m 1 e

/-- Encoding of a value on store (R45). -/
def FFmt.sat (f : FFmt) (mode : Rnd) (v : FVal) : Nat × Bool :=
  match v with
  | .nan => (f.nanCode, false)
  | .inf neg => if f.special = .ieee then (f.join neg (f.maxFinite + 1), false) else (f.join neg f.maxFinite, true)
  | .fin neg m e => f.satQ mode neg m 1 e

namespace FVal

/-- +0. -/
def zero : FVal := .fin false 0 0

/-- An integer. -/
def ofInt (i : Int) : FVal := .fin (decide (i < 0)) i.natAbs 0

/-- Multiplication by a power of two. -/
def scale (v : FVal) (k : Int) : FVal :=
  match v with
  | .fin s m e => .fin s m (e + k)
  | v => v

/-- Negation. -/
def neg (v : FVal) : FVal :=
  match v with
  | .nan => .nan
  | .inf s => .inf (!s)
  | .fin s m e => .fin (!s) m e

/-- Magnitude. -/
def abs (v : FVal) : FVal :=
  match v with
  | .nan => .nan
  | .inf _ => .inf false
  | .fin _ m e => .fin false m e

/-- Whether a value is NaN. -/
def isNan (v : FVal) : Bool := match v with | .nan => true | _ => false
/-- Whether a value is infinite. -/
def isInf (v : FVal) : Bool := match v with | .inf _ => true | _ => false
/-- Whether a value is ±0. -/
def isZero (v : FVal) : Bool := match v with | .fin _ m _ => m == 0 | _ => false

/-- The signed integer ±m × 2^(e − k), for k ≤ e. -/
def toIntAt (s : Bool) (m : Nat) (e k : Int) : Int :=
  let x : Int := (m * 2 ^ (e - k).toNat : Nat)
  if s then -x else x

/-- Exact sum; an exact zero is +0 unless both terms are −0 (R35). -/
def add (a b : FVal) : FVal :=
  match a, b with
  | .nan, _ => .nan
  | _, .nan => .nan
  | .inf s, .inf t => if s = t then .inf s else .nan
  | .inf s, _ => .inf s
  | _, .inf t => .inf t
  | .fin s m e, .fin t n f =>
    if m = 0 ∧ n = 0 then .fin (s && t) 0 0
    else
      let k := if e ≤ f then e else f
      let i := toIntAt s m e k + toIntAt t n f k
      if i = 0 then zero else .fin (decide (i < 0)) i.natAbs k

/-- Exact product. -/
def mul (a b : FVal) : FVal :=
  match a, b with
  | .nan, _ => .nan
  | _, .nan => .nan
  | .inf s, .inf t => .inf (s != t)
  | .inf s, .fin t n _ => if n = 0 then .nan else .inf (s != t)
  | .fin s m _, .inf t => if m = 0 then .nan else .inf (s != t)
  | .fin s m e, .fin t n f => .fin (s != t) (m * n) (e + f)

/-- Order on values that are not NaN; −0 and +0 are equal. -/
def lt (a b : FVal) : Bool :=
  match a, b with
  | .nan, _ => false
  | _, .nan => false
  | .inf s, .inf t => s && !t
  | .inf s, .fin _ _ _ => s
  | .fin _ _ _, .inf t => !t
  | .fin s m e, .fin t n f =>
    let k := if e ≤ f then e else f
    decide (toIntAt s m e k < toIntAt t n f k)

end FVal

/-! ## binary32 and BF16 arithmetic (R35) -/

/-- The value of an FP32 word. -/
def f32v (x : W32) : FVal := FFmt.f32.dec x.toNat

/-- The value of a BF16 code. -/
def bf16v (x : BitVec 16) : FVal := FFmt.bf16.dec x.toNat

/-- Round to FP32, nearest-even. -/
def toF32 (v : FVal) : W32 := BitVec.ofNat 32 (FFmt.f32.enc .rne v)

/-- Round to BF16, nearest-even. -/
def toBf16 (v : FVal) : BitVec 16 := BitVec.ofNat 16 (FFmt.bf16.enc .rne v)

/-- FP32 sum. -/
def fadd (a b : W32) : W32 := toF32 ((f32v a).add (f32v b))
/-- FP32 difference. -/
def fsub (a b : W32) : W32 := toF32 ((f32v a).add (f32v b).neg)
/-- FP32 product. -/
def fmul (a b : W32) : W32 := toF32 ((f32v a).mul (f32v b))
/-- a × b + c with one rounding. -/
def ffma (a b c : W32) : W32 := toF32 (((f32v a).mul (f32v b)).add (f32v c))

/-- The quiet NaN of R35. -/
def qnan : W32 := 0x7FC00000

/-- Maximum; NaN if either is NaN (Table 4.8); +0 above −0. -/
def fmax (a b : W32) : W32 :=
  if (f32v a).isNan || (f32v b).isNan then qnan
  else if (f32v a).lt (f32v b) then b
  else if (f32v b).lt (f32v a) then a
  else if a.getLsbD 31 then b else a

/-- Minimum; NaN if either is NaN (Table 4.8); −0 below +0. -/
def fmin (a b : W32) : W32 :=
  if (f32v a).isNan || (f32v b).isNan then qnan
  else if (f32v a).lt (f32v b) then a
  else if (f32v b).lt (f32v a) then b
  else if a.getLsbD 31 then a else b

/-! ## Approximate functions (R112): every FP32 value inside the bound, chosen by a free error -/

/-- Fixed-point fraction bits used to bracket 2^f. -/
def fxBits : Nat := 80

/-- 2^(b/2^n) in fixed point for the fraction whose bits, most significant first, are given: root is the current
2^(2^-i) in fixed point. -/
def exp2Frac : List Bool → Nat → Nat → Nat
  | [], _, acc => acc
  | b :: bs, root, acc =>
    exp2Frac bs (Nat.sqrt (root * 2 ^ fxBits)) (if b then acc * root / 2 ^ fxBits else acc)

/-- 2^a for finite a as n × 2^k, bracketed to well below one unit in the last place of an FP32 result. -/
def exp2Q (neg : Bool) (m : Nat) (e : Int) : Nat × Int :=
  let low : Int := if e < -30 then e else -30
  let k := FVal.toIntAt neg m e low
  let one : Nat := 2 ^ (-low).toNat
  let i := k.fdiv one
  let f30 := (k - i * one).toNat / 2 ^ (-low - 30).toNat
  let bitsF := (List.range 30).map (fun j => Nat.testBit f30 (29 - j))
  (exp2Frac bitsF (Nat.sqrt (2 * 2 ^ fxBits * 2 ^ fxBits)) (2 ^ fxBits), i - fxBits)

/-- A finite FP32 code moved by a number of units in the last place, within the finite range of its sign. -/
def moveUlp (x : W32) (d : Int) : W32 :=
  let m : Int := (x.toNat % 2 ^ 31 : Nat) + d
  let m' : Nat := if m < 0 then 0 else if 0x7F7FFFFF < m then 0x7F7FFFFF else m.toNat
  BitVec.ofNat 32 (x.toNat / 2 ^ 31 * 2 ^ 31 + m')

/-- An FP32 value within `bound` units in the last place of ±(n/d) × 2^e: every such value is reached by some error. A
magnitude beyond the range gives infinity. -/
def nearF32 (bound : Nat) (err : Int) (neg : Bool) (n d : Nat) (e : Int) : W32 :=
  let lo := BitVec.ofNat 32 (FFmt.f32.encQ .down neg n d e)
  let hi := BitVec.ofNat 32 (FFmt.f32.encQ .up neg n d e)
  if (f32v lo).isInf then lo
  else if lo = hi then moveUlp lo (err % (2 * (bound : Int) + 1) - bound)
  else
    let k := err % (2 * (bound : Int)) + 1 - bound
    if k = 1 then hi else moveUlp lo k

/-- VEXP2 (Table 4.9): error at most 2 ulp; below 2^-126 at most one unit of 2^-149. -/
def fexp2 (err : W32 → Int) (a : W32) : W32 :=
  match f32v a with
  | .nan => qnan
  | .inf true => 0
  | .inf false => 0x7F800000
  | .fin neg m e =>
    if !(FVal.lt (.fin neg m e) (.fin false 1 7)) then 0x7F800000
    else if FVal.lt (.fin neg m e) (.fin true 150 0) then 0
    else
      let y := exp2Q neg m e
      nearF32 (if FVal.lt (.fin neg m e) (.fin true 126 0) then 1 else 2) (err a) false y.1 1 y.2

/-- VRCP (Table 4.9): error at most 1 ulp. -/
def frcp (err : W32 → Int) (a : W32) : W32 :=
  match f32v a with
  | .nan => qnan
  | .inf s => if s then 0x80000000 else 0
  | .fin s m e => if m = 0 then (if s then 0xFF800000 else 0x7F800000) else nearF32 1 (err a) s 1 m (-e)

/-- VRSQ (Table 4.9): error at most 2 ulp. The root is taken with 60 further bits. -/
def frsq (err : W32 → Int) (a : W32) : W32 :=
  match f32v a with
  | .nan => qnan
  | .inf s => if s then qnan else 0
  | .fin s m e =>
    if m = 0 then (if s then 0xFF800000 else 0x7F800000)
    else if s then qnan
    else
      let m2 := if e % 2 = 0 then m else 2 * m
      let e2 := if e % 2 = 0 then e else e - 1
      nearF32 2 (err a) false (2 ^ 60) (Nat.sqrt (m2 * 2 ^ 120)) (-(e2.fdiv 2))

end Sys2Proof.Machine
end

