-- ==== Sys2Proof/Machine/Convert.lean ====
section
/-! DEFINITION. Conversions between stored formats: Tables 2.1-2.5, 4.11, rules R27-R36 and R41-R46, R114, R115. -/

namespace Sys2Proof.Machine

/-! ## Bytes -/

/-- The number that little-endian bytes spell (R6). -/
def leNat : List Byte → Nat
  | [] => 0
  | b :: bs => b.toNat + 256 * leNat bs

/-- n little-endian bytes of a number (R6). -/
def natLe : Nat → Nat → List Byte
  | 0, _ => []
  | n + 1, v => BitVec.ofNat 8 v :: natLe n (v / 256)

/-- Codes of w bits each, element 0 in the lowest bits (Table 2.4), as bytes. -/
def packBits (w : Nat) (codes : List Nat) : List Byte :=
  natLe ((codes.length * w + 7) / 8) (codes.foldr (fun c acc => c % 2 ^ w + 2 ^ w * acc) 0)

/-- The codes of w bits each that bytes hold. -/
def unpackBits (w count : Nat) (bs : List Byte) : List Nat :=
  let v := leNat bs
  (List.range count).map (fun i => (v >>> (w * i)) % 2 ^ w)

/-- A w-bit code as a two's complement integer. -/
def sext (w c : Nat) : Int := if 2 ^ w ≤ 2 * (c % 2 ^ w) then (c % 2 ^ w : Nat) - (2 ^ w : Int) else (c % 2 ^ w : Nat)

/-- An integer as a w-bit two's complement code. -/
def toCode (w : Nat) (i : Int) : Nat := (i % (2 ^ w : Int)).toNat

/-- Bytes rounded up to a 32-byte boundary (R115). -/
def up32 (n : Nat) : Nat := (n + 31) / 32 * 32

/-- Pads a list of bytes with zeros to a length. -/
def padTo (n : Nat) (bs : List Byte) : List Byte := bs ++ List.replicate (n - bs.length) 0

/-! ## Weight tile records (R28, R29) -/

/-- Planes of a weight format, codes of Table 3.9 Q0 [31:28]: 0 W1, 1 ternary, 2 W2, 3 W3, 4 W4, 5 W6, 6 W8. -/
def planes (wfmt : Nat) : Nat := [1, 2, 2, 3, 4, 6, 8].getD wfmt 0

/-- Record length in bytes (R29). -/
def recordLen (wfmt : Nat) : Nat := 128 * planes wfmt + 32

/-- The element code of K row r, column n of a tile record (R29). -/
def tileCode (rec : List Byte) (wfmt r n : Nat) : Nat :=
  ((List.range (planes wfmt)).map (fun p =>
    if (rec.getD (128 * p + 4 * r + n / 8) 0).getLsbD (n % 8) then 2 ^ p else 0)).sum

/-- The value of a weight code (Table 2.2). -/
def weightValue (wfmt code : Nat) : Int :=
  match wfmt with
  | 0 => if code = 1 then 1 else -1
  | 1 => if code = 1 then 1 else if code = 2 then -1 else 0
  | _ => sext (planes wfmt) code

/-- A tile record from its element codes, by K row and column, and its scale line (R29). -/
def packRecord (wfmt : Nat) (code : Nat → Nat → Int) (scales : List Nat) : List Byte :=
  ((List.range (planes wfmt)).flatMap (fun p =>
    (List.range 32).flatMap (fun r =>
      natLe 4 (((List.range 32).map (fun n =>
        if Nat.testBit (toCode (planes wfmt) (code r n)) p then 2 ^ n else 0)).sum))))
  ++ (List.range 32).map (fun n => BitVec.ofNat 8 (scales.getD n 0))

/-! ## Block maxima -/

/-- The larger of two finite magnitudes m × 2^e. -/
def magMax (a b : Nat × Int) : Nat × Int :=
  if FVal.lt (.fin false a.1 a.2) (.fin false b.1 b.2) then b else a

/-- The largest finite magnitude of a list. -/
def amaxFin (xs : List FVal) : Nat × Int :=
  xs.foldl (fun acc v => match v with | .fin _ m e => magMax acc (m, e) | _ => acc) (0, 0)

/-- ⌈log2 (n/d)⌉ for positive n, d. -/
def clog2Q (n d : Nat) : Int :=
  let k := ilog2Q n d
  let s := scaleQ n d (-k)
  if s.1 = s.2 then k else k + 1

/-- A rational scaled by a power of two, rounded up to an integer. -/
def ceilQ (n d : Nat) (k : Int) : Nat := let s := scaleQ n d k; (s.1 + s.2 - 1) / s.2

/-- Result of a quantiser: codes, and saturations counted. -/
structure QBlock where
  scale : Nat
  codes : List Int
  sats : Nat
  deriving DecidableEq, Repr

/-- Rounds ±m·2^e / step, for a step of sn/sd × 2^se, to a signed integer. -/
def roundStep (mode : Rnd) (neg : Bool) (m : Nat) (e : Int) (sn sd : Nat) (se : Int) : Int :=
  let s := scaleQ (m * sd) sn (e - se)
  let q : Int := roundQ mode neg s.1 s.2
  if neg then -q else q

/-- One element under a symmetric limit: its code and whether it saturates (R42-R45). -/
def limitCode (lim : Nat) (c : Int) : Int × Bool :=
  if (lim : Int) < c then (lim, true) else if c < -(lim : Int) then (-(lim : Int), true) else (c, false)

/-- Codes of a block with the given rounding of its finite elements; infinities take the limit of their sign. -/
def codeBlock (lim : Nat) (f : Nat → Bool → Nat → Int → Int) (xs : List FVal) : List Int × Nat :=
  let cs := xs.zipIdx.map (fun (v, i) =>
    match v with
    | .nan => ((0 : Int), false)
    | .inf neg => (if neg then -(lim : Int) else lim, true)
    | .fin neg m e => limitCode lim (f i neg m e))
  (cs.map (·.1), (cs.filter (·.2)).length)

/-- A8 and A16 blocks (R42): q is 64 or 16,384. `sr` tells the mode for the exponent adjustment. -/
def quantAct (q : Nat) (sr : Bool) (mode : Nat → Rnd) (xs : List FVal) : QBlock :=
  if xs.any FVal.isNan then { scale := 0xFF, codes := xs.map (fun _ => 0), sats := 0 }
  else
    let am := amaxFin xs
    let hasInf := xs.any FVal.isInf
    if am.1 = 0 ∧ hasInf = false then { scale := 0, codes := xs.map (fun _ => 0), sats := 0 }
    else
      let l := ilog2Q am.1 1 + am.2
      let e0 := 127 + l
      -- amax / 2^(e0-127) × q, doubled, against 4q - 1 or 2 (2q - 1)
      let s := scaleQ (am.1 * q * 2) 1 (am.2 - l)
      let adj : Bool := if sr then decide (2 * (2 * q - 1) * s.2 < s.1) else decide ((4 * q - 1) * s.2 ≤ s.1)
      let ea : Int :=
        if hasInf then 0xFE
        else if e0 < 0 then 0
        else if adj then (if 0xFE < e0 + 1 then 0xFE else e0 + 1) else e0
      let c := codeBlock (2 * q - 1) (fun i neg m e => roundStep (mode i) neg (m * q) e 1 1 (ea - 127)) xs
      { scale := ea.toNat, codes := c.1, sats := c.2 }

/-- The largest code of a weight format Kegor quantises to (R43), by wfmt. -/
def weightQ (wfmt : Nat) : Nat := match wfmt with | 6 => 127 | 5 => 31 | 4 => 7 | _ => 3

/-- Weight block with an E8 scale (R43): the scale code. -/
def e8Scale (q : Nat) (xs : List FVal) : Nat :=
  if xs.any FVal.isNan then 0xFF
  else if xs.any FVal.isInf then 0xFE
  else
    let am := amaxFin xs
    if am.1 = 0 then 0
    else
      let e : Int := 127 + (clog2Q am.1 q + am.2)
      if e < 0 then 0 else if 0xFE < e then 0xFE else e.toNat

/-- Tile exponent of an S8 tile (R43); that of a tile of zeros, which the rule leaves open, is given. -/
def s8Exp (q zeroExp : Nat) (blocks : List (List FVal)) : Nat :=
  if blocks.any (fun b => b.any FVal.isNan) then 0xFF
  else if blocks.any (fun b => b.any FVal.isInf) then 0xFE
  else
    let am := blocks.foldl (fun acc b => magMax acc (amaxFin b)) (0, 0)
    if am.1 = 0 then zeroExp
    else
      let e : Int := 134 + (clog2Q am.1 (q * 255) + am.2)
      if e < 0 then 0 else if 0xFE < e then 0xFE else e.toNat

/-- Quantises a tile (R43, R45). `blocks` lists the 32 elements of each column; element r of column n draws number
32·r + n, and `zeroExp` is an S8 tile of zeros' exponent. Answers the record, the tile exponent (S8) and the saturations. -/
def quantTile (wfmt : Nat) (s8 : Bool) (zeroExp : Nat) (mode : Nat → Rnd) (blocks : List (List FVal)) : List Byte × Nat × Nat :=
  let q := weightQ wfmt
  let te := s8Exp q zeroExp blocks
  let one (n : Nat) (xs : List FVal) : QBlock :=
    if s8 then
      if te = 0xFF then { scale := 0, codes := xs.map (fun _ => 0), sats := 0 }
      else
        let am := amaxFin xs
        let mb := if xs.any FVal.isInf then 255 else Nat.min 255 (ceilQ am.1 q (am.2 + 134 - te))
        if mb = 0 then { scale := 0, codes := xs.map (fun _ => 0), sats := 0 }
        else
          let c := codeBlock q (fun r neg m e => roundStep (mode (32 * r + n)) neg m e mb 1 ((te : Int) - 134)) xs
          { scale := mb, codes := c.1, sats := c.2 }
    else
      let e := e8Scale q xs
      if e = 0xFF then { scale := 0xFF, codes := xs.map (fun _ => 0), sats := 0 }
      else
        let c := codeBlock q (fun r neg m x => roundStep (mode (32 * r + n)) neg m x 1 1 ((e : Int) - 127)) xs
        { scale := e, codes := c.1, sats := c.2 }
  let bs := blocks.zipIdx.map (fun (xs, n) => one n xs)
  (packRecord wfmt (fun r n => ((bs.getD n { scale := 0, codes := [], sats := 0 }).codes.getD r 0)) (bs.map (·.scale)),
    te, (bs.map (·.sats)).sum)

/-- Key or value row (R44): element bits 8, 4 or 2. The scale is a BF16 code; `pick` chooses code 1 or 2 in a K2/V2 row of
zeros. -/
def quantKv (w : Nat) (pick : Nat → BitVec 16) (mode : Nat → Rnd) (xs : List FVal) : QBlock :=
  let q := if w = 8 then 127 else if w = 4 then 7 else 3
  if xs.any FVal.isNan then { scale := 0x7FC0, codes := xs.map (fun _ => 0), sats := 0 }
  else
    let am := amaxFin xs
    if am.1 = 0 ∧ xs.any FVal.isInf = false then
      { scale := 0, codes := xs.zipIdx.map (fun (_, i) => if w = 2 then 1 + (pick i).toNat % 2 else 0), sats := 0 }
    else
      let sc :=
        if am.1 = 0 then FFmt.bf16.encQ .down false 255 q 120
        else FFmt.bf16.satQ .up false am.1 q am.2 |>.1
      match FFmt.bf16.dec sc with
      | .fin _ sm se =>
        let cs := xs.zipIdx.map (fun (v, i) =>
          match v with
          | .nan => ((0 : Int), false)
          | .inf neg => (if w = 2 then (if neg then 0 else 3) else if neg then -(q : Int) else q, true)
          | .fin neg m e =>
            if w = 2 then
              -- (x/s + 3) / 2 = (±m·2^e + 3·s) / (2·s), formed at the common exponent
              let k := if e ≤ se then e else se
              let num := FVal.toIntAt neg m e k + 3 * FVal.toIntAt false sm se k
              let den := 2 * (FVal.toIntAt false sm se k).toNat
              let r : Int := roundQ (mode i) (decide (num < 0)) num.natAbs den
              let r := if num < 0 then -r else r
              (if r < 0 then 0 else if 3 < r then 3 else r, false)
            else limitCode q (roundStep (mode i) neg m e sm 1 se))
        { scale := sc, codes := cs.map (·.1), sats := (cs.filter (·.2)).length }
      | _ => { scale := sc, codes := xs.map (fun _ => 0), sats := 0 }

/-- Elements of a key or value row from its codes and BF16 scale (Tables 2.3, 2.4). -/
def kvValues (w : Nat) (scale : Nat) (codes : List Nat) : List FVal :=
  match FFmt.bf16.dec scale with
  | .fin neg m e =>
    if neg ∧ m ≠ 0 then codes.map (fun _ => .nan)
    else codes.map (fun (c : Nat) => (FVal.ofInt (if w = 2 then 2 * (c : Int) - 3 else sext w c)).mul (.fin false m e))
  | _ => codes.map (fun _ => .nan)

/-! ## Move formats (Table 4.11) -/

/-- Whether a code is listed in Table 4.11. -/
def fmtListed (f : Nat) : Bool := f ≤ 19
/-- Weight record formats 5-8. -/
def isWeight (f : Nat) : Bool := 5 ≤ f && f ≤ 8
/-- Key/value row formats 9-11. -/
def isKv (f : Nat) : Bool := 9 ≤ f && f ≤ 11
/-- OCP Microscaling formats 12-17. -/
def isMx (f : Nat) : Bool := 12 ≤ f && f ≤ 17
/-- FP8 formats 18, 19. -/
def isFp8 (f : Nat) : Bool := f == 18 || f == 19
/-- FP32 or BF16. -/
def isFloat (f : Nat) : Bool := f == 1 || f == 2

/-- wfmt of a weight record format code. -/
def fmtW (f : Nat) : Nat := [6, 5, 4, 3].getD (f - 5) 3

/-- Element bits of a format code. -/
def fmtBits (f : Nat) : Nat :=
  match f with
  | 1 => 32 | 2 => 16 | 3 => 8 | 4 => 16 | 9 => 8 | 10 => 4 | 11 => 2
  | 12 => 8 | 13 => 8 | 14 => 6 | 15 => 6 | 16 => 4 | 17 => 8 | 18 => 8 | 19 => 8 | _ => 8

/-- The floating element format of an MX or FP8 code. -/
def fmtFloat (f : Nat) : FFmt :=
  match f with
  | 12 => .e4m3 | 13 => .e5m2 | 14 => .e2m3 | 15 => .e3m2 | 16 => .e2m1 | 18 => .e4m3 | 19 => .e5m2
  | 2 => .bf16 | _ => .f32

/-- The exponent of the largest normal element (OCP emax). -/
def fmtEmax (f : Nat) : Int := match f with | 12 => 8 | 13 => 15 | 14 => 2 | 15 => 4 | 16 => 2 | _ => 0

/-- Pairs of codes that Table 2.5 lists, raw to raw, or a format to itself (R46, R114). -/
def convLegal (s d : Nat) : Bool :=
  s == d
  || (s == 17 && d == 3) || (s == 3 && d == 17)
  || (isMx s && isWeight d)
  || (isMx s && isFloat d) || (isFp8 s && isFloat d)
  || (s == 1 && d == 2)
  || (isFloat s && (d == 3 || d == 4 || isWeight d || isKv d || isFp8 d || isMx d))

/-- Element count a move must be a multiple of (R115). -/
def convUnit (s d : Nat) : Nat :=
  if isWeight s || isWeight d then 1024 else if isKv s || isKv d then 128 else 32

/-- Bytes that `count` elements take in a format (R29, R115); for raw the count is the bytes. -/
def fmtSize (f : Nat) (s8 : Bool) (count : Nat) : Nat :=
  if f = 0 then count
  else if isWeight f then
    count / 1024 * recordLen (fmtW f) + (if s8 then count / 1024 else 0)
  else if isKv f then up32 (count * fmtBits f / 8) + count / 128 * 2
  else if isMx f || f == 3 || f == 4 then up32 (count * fmtBits f / 8) + count / 32
  else count * fmtBits f / 8

/-- The value of MX elements under their shared scales (Table 2.1), or FP8 elements times the tensor scale, or floats. -/
def decodeElems (f count : Nat) (aux : W32) (src : List Byte) : List FVal :=
  let codes := unpackBits (fmtBits f) count (src.take ((count * fmtBits f + 7) / 8))
  if isMx f then
    codes.zipIdx.map (fun (c, i) =>
      let x := (src.getD (up32 (count * fmtBits f / 8) + i / 32) 0).toNat
      if x = 0xFF then .nan
      else if f = 17 then (FVal.ofInt (sext 8 c)).scale ((x : Int) - 133)
      else ((fmtFloat f).dec c).scale ((x : Int) - 127))
  else if isFp8 f then codes.map (fun c => ((fmtFloat f).dec c).mul (f32v aux))
  else codes.map (fun c => (fmtFloat f).dec c)

/-- Splits a list into n consecutive parts of k elements. -/
def chunks {α : Type} (k : Nat) : Nat → List α → List (List α)
  | 0, _ => []
  | n + 1, l => l.take k :: chunks k n (l.drop k)

/-- The 32 columns of a tile from its 1,024 elements in K-row-major order (R115). -/
def tileColumns (xs : List FVal) : List (List FVal) :=
  (List.range 32).map (fun n => (List.range 32).map (fun r => xs.getD (32 * r + n) FVal.zero))

/-- An MX block of floating elements (Table 2.5): shared exponent ⌊log2 amax⌋ − emax, elements rounded and saturated. -/
def quantMx (f : Nat) (mode : Nat → Rnd) (xs : List FVal) : Nat × List Nat × Nat :=
  if xs.any FVal.isNan then (0xFF, xs.map (fun _ => 0), 0)
  else
    let am := amaxFin xs
    let x : Int :=
      if xs.any FVal.isInf then 0xFE
      else if am.1 = 0 then 0
      else 127 + ilog2Q am.1 1 + am.2 - fmtEmax f
    let x : Int := if x < 0 then 0 else if 0xFE < x then 0xFE else x
    let cs := xs.zipIdx.map (fun (v, i) =>
      match v with
      | .inf neg => ((fmtFloat f).join neg (fmtFloat f).maxFinite, true)
      | v => (fmtFloat f).sat (mode i) (v.scale (127 - x)))
    (x.toNat, cs.map (·.1), (cs.filter (·.2)).length)

/-- x / scale encoded in an FP8 format (Table 2.5, R45); a division by zero follows IEEE 754 (log entry 21). -/
def fp8Store (f : FFmt) (mode : Rnd) (v scale : FVal) : Nat × Bool :=
  match v, scale with
  | .nan, _ => f.sat mode .nan
  | _, .nan => f.sat mode .nan
  | .inf _, .inf _ => f.sat mode .nan
  | .inf s, .fin t _ _ => f.sat mode (.inf (s != t))
  | .fin s _ _, .inf t => f.sat mode (.fin (s != t) 0 0)
  | .fin s m e, .fin t n k =>
    if n = 0 then f.sat mode (if m = 0 then .nan else .inf (s != t))
    else f.satQ mode (s != t) m n (e - k)

/-- Result of a conversion: bytes, saturations, infinities produced by a load to FP32. -/
structure Conv where
  out : List Byte
  sats : Nat
  infs : Nat
  deriving DecidableEq, Repr

/-- Whether an MX block moves to a weight block exactly (Table 2.5): the scale step, when the block allows it. -/
def mxExact (s d : Nat) (s8 : Bool) (x : Nat) : Option Nat :=
  if s8 then none
  else if s = 17 ∧ d = 5 ∧ 6 ≤ x ∧ x < 0xFF then some 6
  else if s = 16 ∧ d = 6 ∧ 1 ≤ x ∧ x < 0xFF then some 1
  else if s = 14 ∧ d = 5 ∧ 3 ≤ x ∧ x < 0xFF then some 3
  else none

/-- MX blocks to weight records: block n of a tile becomes column n (log entry 22). -/
def mxToWeight (s d : Nat) (s8 : Bool) (zeroExp : Nat → Nat) (mode : Nat → Rnd) (count : Nat) (src : List Byte) : Conv :=
  let vals := decodeElems s count 0 src
  let tiles := chunks 1024 (count / 1024) vals
  let rs := tiles.zipIdx.map (fun (t, k) =>
    let blocks := chunks 32 32 t
    let q := quantTile (fmtW d) s8 (zeroExp k) (fun i => mode (1024 * k + i)) blocks
    let sc (n : Nat) : Nat := (src.getD (up32 (count * fmtBits s / 8) + 32 * k + n) 0).toNat
    -- an exact block keeps its elements, as integers of step 2^(x-127-step)
    let exact := (List.range 32).map (fun n => mxExact s d s8 (sc n))
    let code (r n : Nat) : Int :=
      match exact.getD n none, (blocks.getD n []).getD r FVal.zero with
      | some k, .fin neg m e => roundStep .rne neg m e 1 1 ((sc n : Int) - 127 - k)
      | _, _ => weightValue (fmtW d) (tileCode q.1 (fmtW d) r n)
    let scale := (List.range 32).map (fun n =>
      match exact.getD n none with
      | some k => sc n - k
      | none => (q.1.getD (128 * planes (fmtW d) + n) 0).toNat)
    (packRecord (fmtW d) code scale, q.2.1, q.2.2))
  { out := rs.flatMap (·.1) ++ (if s8 then rs.map (fun r => BitVec.ofNat 8 r.2.1) else []),
    sats := (rs.map (·.2.2)).sum, infs := 0 }

/-- A conversion of `count` elements (R46). Both codes are listed and the pair legal; `draw` supplies R41's values
and what R43 and R44 leave open. -/
def convert (s d : Nat) (s8 sr : Bool) (aux : W32) (draw : Nat → BitVec 16) (count : Nat) (src : List Byte) : Conv :=
  let mode (i : Nat) : Rnd := if sr then .sr (draw i).toNat else .rne
  let zeroExp (k : Nat) : Nat := (draw (1024 * k)).toNat % 255
  if s = d ∨ (s = 17 ∧ d = 3) ∨ (s = 3 ∧ d = 17) then { out := src, sats := 0, infs := 0 }
  else if isMx s ∧ isWeight d then mxToWeight s d s8 zeroExp mode count src
  else
    let vals := decodeElems s count aux src
    if isFloat d then
      let cs := vals.zipIdx.map (fun (v, i) =>
        if s = 1 then (fmtFloat d).sat (mode i) v else ((fmtFloat d).enc (mode i) v, false))
      let infs := if d = 1 then ((vals.zip cs).filter (fun (v, c) =>
        !v.isInf && (FFmt.f32.dec c.1).isInf)).length else 0
      { out := packBits (fmtBits d) (cs.map (·.1)), sats := (cs.filter (·.2)).length, infs := infs }
    else if isFp8 d then
      let cs := vals.zipIdx.map (fun (v, i) => fp8Store (fmtFloat d) (mode i) v (f32v aux))
      { out := packBits 8 (cs.map (·.1)), sats := (cs.filter (·.2)).length, infs := 0 }
    else if d = 3 ∨ d = 4 ∨ d = 17 then
      let w := fmtBits d
      let bs := (chunks 32 (count / 32) vals).zipIdx.map (fun (b, k) =>
        quantAct (if d = 4 then 16384 else 64) sr (fun i => mode (32 * k + i)) b)
      { out := padTo (up32 (count * w / 8)) (packBits w (bs.flatMap (fun b => b.codes.map (toCode w))))
          ++ bs.map (fun b => BitVec.ofNat 8 b.scale),
        sats := (bs.map (·.sats)).sum, infs := 0 }
    else if isWeight d then
      let rs := (chunks 1024 (count / 1024) vals).zipIdx.map (fun (t, k) =>
        quantTile (fmtW d) s8 (zeroExp k) (fun i => mode (1024 * k + i)) (tileColumns t))
      { out := rs.flatMap (·.1) ++ (if s8 then rs.map (fun r => BitVec.ofNat 8 r.2.1) else []),
        sats := (rs.map (·.2.2)).sum, infs := 0 }
    else if isKv d then
      let w := fmtBits d
      let bs := (chunks 128 (count / 128) vals).zipIdx.map (fun (b, k) => quantKv w (fun i => draw (128 * k + i)) (fun i => mode (128 * k + i)) b)
      { out := padTo (up32 (count * w / 8)) (packBits w (bs.flatMap (fun b => b.codes.map (toCode w))))
          ++ bs.flatMap (fun b => natLe 2 b.scale),
        sats := (bs.map (·.sats)).sum, infs := 0 }
    else
      let w := fmtBits d
      let bs := (chunks 32 (count / 32) vals).zipIdx.map (fun (b, k) => quantMx d (fun i => mode (32 * k + i)) b)
      { out := padTo (up32 (count * w / 8)) (packBits w (bs.flatMap (·.2.1)))
          ++ bs.map (fun b => BitVec.ofNat 8 b.1),
        sats := (bs.map (·.2.2)).sum, infs := 0 }

end Sys2Proof.Machine
end

