-- ==== Sys2Proof/Machine/State.lean ====
section
/-! DEFINITION. The state of Kegor as plain data, and the state at reset (R484: a cold start has begun, PERST_N is still asserted). -/

namespace Sys2Proof.Machine

/-- Reasons the machine can stop with a fault. No command of this model raises one: R12, R26 and R127 confine every
failure of Kegor to a status, a log record, a fence or the SAFE state. The one constructor is kept for the interface: safe. -/
inductive Fault where
  /-- Raised by no command; safe. -/
  | unreachable
  deriving DecidableEq, Repr

/-- Reasons a command has no meaning. -/
inductive Refusal where
  /-- Raised by the arm of a command that has no meaning yet; safe. -/
  | notModelled (mnemonic : String)
  deriving DecidableEq, Repr

/-- Bytes by address in the canonical form of `Memory.wf` (Machine/Ops.lean): addresses rising, no entry equal to what an
unlisted address reads as. -/
abbrev Memory := List Host.Cell

/-- Sparse data by key, keys rising; a key not listed holds the default that the reader names. -/
abbrev SMap (α : Type) := List (Nat × α)

/-! ## Cores (chapters 03, 04, 05, 15) -/

/-- Readiness state of a buffer (R100). -/
inductive BufState where
  | empty
  | complete
  | poisoned
  deriving DecidableEq, Repr

/-- A binding of the running work item (Table 4.17): buffer number, byte range of core store, marks. `written` and `set`
are 1 + the place in program order of the latest writer that completed and of the latest NBINV or BUFSTATE carried out,
0 for none: the mark is that of the program run one instruction at a time (R99). -/
structure Buffer where
  num : Nat
  base : Nat
  size : Nat
  readOnly : Bool
  st : BufState
  written : Nat
  set : Nat
  deriving DecidableEq, Repr

/-- A byte range of core store that an instruction names, with the buffer it lies in. -/
structure Rng where
  buf : Nat
  addr : Nat
  len : Nat
  deriving DecidableEq, Repr

/-- A work-item descriptor (Table 4.16) with the scheduler's own bookkeeping: the descriptor of the ring it came from,
the table it builds, the step it belongs to, the table and version whose arguments it was given (R300), whether it may be rotated and over which cores (R391), the pages it pins and the tail pages it appends to (R276, R282). -/
structure WorkItem where
  workItem : W32
  context : CtxId
  partition : PartId
  priority : BitVec 8
  preemptible : Bool
  progBase : W64
  progLen : W32
  entry : W32
  argAddr : W64
  bindCount : BitVec 16
  waitLimit : W32
  bindAddr : W64
  tag : W64
  argLen : BitVec 16
  seq : W32
  firstCore : Nat
  coreCount : Nat
  builderOf : Option W32
  stepPhase : Option (W32 × Nat × Nat)
  movable : Bool
  eqFirst : Nat
  eqCount : Nat
  table : Option (W32 × W32)
  fetchOrder : Nat
  peer : Option W32
  pages : List PageKey
  tails : List PageKey
  deriving DecidableEq, Repr

/-- FCFG settings of a group, resolved (Table 4.6). -/
structure FeedCfg where
  act : Rng
  exps : Rng
  stride : Nat
  deriving DecidableEq, Repr

/-- DCFG settings of a group, resolved (Table 4.6). `bias` is none for buffer 255. -/
structure DrainCfg where
  out : Rng
  stride : Nat
  bias : Option Rng
  deriving DecidableEq, Repr

/-- OCFG settings of a group (Table 5.2). -/
structure OutlierCfg where
  sib : Fin 16
  pair : Bool
  recRng : Rng
  listRng : Rng
  s8 : Bool
  tileExp : Byte
  expTable : Option Rng
  deriving DecidableEq, Repr

/-- SCFG settings of a group (Table 5.3). -/
structure SoundCfg where
  tag : BitVec 12
  log2n : Nat
  src : Rng
  stride : Nat
  bf16 : Bool
  ref : W64
  deriving DecidableEq, Repr

/-- A tile held by an array (R29, R51): the record's address, its format, its scale type, the tile exponent, the record's
bytes (planes, then the scale line), whether it is an outlier tile, whether its record was poisoned, and whether a
reload found the record changed (R85). -/
structure Tile where
  addr : Nat
  stride : Nat
  wfmt : Nat
  s8 : Bool
  exp : Byte
  bytes : List Byte
  outlier : Bool
  poisoned : Bool
  stale : Bool
  deriving DecidableEq, Repr

/-- Arithmetic counters of a group (Table 5.1). -/
structure ArithCnt where
  nan : W32
  inf : W32
  subn : W32
  nancode : W32
  deriving DecidableEq, Repr

/-- Arithmetic counters at work-item start (Table 5.1). -/
def ArithCnt.zero : ArithCnt := { nan := 0, inf := 0, subn := 0, nancode := 0 }

/-- A pass as it issues (Table 3.1), with its resolved operands. `cursor` is the next token row and `done` the counts of the
rows before it (Table 3.9). -/
structure PassP where
  group : GroupId
  shape : Nat
  wfmt : Nat
  s8 : Bool
  afmt : Nat
  init : Nat
  keep : Bool
  sound : Bool
  outlier : Bool
  m : Nat
  kb : Nat
  n : Nat
  feed : Option FeedCfg
  drain : Option DrainCfg
  ocfg : Option OutlierCfg
  scfg : Option SoundCfg
  cursor : Nat
  done : ArithCnt
  deriving DecidableEq, Repr

/-- A pass of a run: its parameters, the tiles it met, and the operand bytes it read (for R85). -/
structure RunPass where
  p : PassP
  tiles : List (Option Tile)
  snap : List Byte
  deriving DecidableEq, Repr

/-- An accumulation run of a group (R84): output address, index of its opening pass, the contents it started from when it
was opened by an accumulating pass, the passes issued so far, the faults it has met, the passes still to be run again, the
syndromes of its faults, and whether a thermal action holds the retry (R90, R91). -/
structure Run where
  outAddr : Nat
  runPc : Nat
  start : List (Nat × List Byte)
  passes : List RunPass
  retries : Nat
  replay : List RunPass
  retrying : Bool
  syndromes : List Syndrome
  held : Bool
  deriving DecidableEq, Repr

/-- A tile load in flight (R61). -/
structure LoadP where
  group : GroupId
  first : Nat
  count : Nat
  src : Rng
  stride : Nat
  exps : Option Rng
  wfmt : Nat
  outlier : Option OutlierCfg
  deriving DecidableEq, Repr

/-- Vector operations (Table 4.8). -/
inductive VecOp where
  | add | sub | mul | fma | max | min | copy | fill | exp2 | rcp | rsq | cvt | sum | rmax | sumsq | rot
  deriving DecidableEq, Repr

/-- A vector instruction with resolved operands (Table 4.7). -/
structure VecP where
  op : VecOp
  type : Nat
  bs : Bool
  scalar : W32
  len : Nat
  dst : Rng
  a : Option Rng
  b : Option Rng
  cursor : Nat
  deriving DecidableEq, Repr

/-- Kinds of move (R113). -/
inductive MoveOp where
  | load | store | copy
  deriving DecidableEq, Repr

/-- A move with resolved operands (Table 4.10). `remote` is the remote address of a load or store, `other` the second
core-store range of a copy; `cursor` the source bytes that a stopped raw move has done (R133). -/
structure MoveP where
  op : MoveOp
  store : Rng
  other : Option Rng
  remote : W64
  len : Nat
  sfmt : Nat
  dfmt : Nat
  sr : Bool
  aux : W32
  s8 : Bool
  background : Bool
  cursor : Nat
  deriving DecidableEq, Repr

/-- A launch as the core's near-bank port sends it (Table 4.13): the core, the target as its register holds it, the slice it
names. -/
structure LaunchP where
  core : CoreId
  tgt : W64
  target : CoreId
  st : Rng
  mask : W64
  prog : W64
  arg : W64
  classB : Bool
  fixed : Bool
  background : Bool
  ctx : CtxId
  part : PartId
  workItem : W32
  deriving DecidableEq, Repr

/-- The operation of a queue entry with its operands resolved at dispatch (R95). -/
inductive Op where
  | tload (p : LoadP)
  | pass (p : PassP) (tiles : List (Option Tile))
  | fcfg (g : GroupId) (cfg : FeedCfg)
  | dcfg (g : GroupId) (cfg : DrainCfg)
  | ocfg (g : GroupId) (cfg : Option OutlierCfg)
  | scfg (g : GroupId) (cfg : Option SoundCfg)
  | vec (p : VecP)
  | move (p : MoveP)
  | nblaunch (p : LaunchP)
  | nbflush (addr : W64) (len : W64)
  | nbinv (buf : Nat)
  | semadd (sem : Nat) (val : W32)
  | bufstate (buf : Nat) (st : BufState)
  | cntadd (cnt : Fin 16) (val : W32) (mask : BitVec 13)
  | coll (desc : Rng)
  deriving DecidableEq, Repr

/-- An instruction that has been dispatched and has not completed: its queue, program index, place in program order,
the buffers it reads and writes (R99), and its operation. -/
structure Entry where
  queue : Queue
  pc : Nat
  ord : Nat
  reads : List Nat
  writes : List Nat
  op : Op
  deriving DecidableEq, Repr

/-- What dispatch waits for (R94, R105, R121, R125, R129). -/
inductive Waiting where
  | none
  | lds (d : BitVec 5) (r : Rng) (wide : Bool)
  | sts (v : W64) (r : Rng) (wide : Bool)
  | semwait (sem : Nat) (val : W32) (consume : Bool)
  | fence (mask : BitVec 13)
  | flagwait (mask : W32) (all : Bool)
  | cntwait (cnt : Fin 16) (val : W32)
  | drainWait (event : Nat) (a b : W64)
  | waiting (event : Nat) (a b : W64)
  | drainEnd (v : W64)
  | faulted (status : BitVec 16) (pc : Nat)
  deriving DecidableEq, Repr

/-- Power state of a domain (Table 15.1, Table 15.7). -/
inductive DomSt where
  | on
  | retention
  | off
  | failed
  deriving DecidableEq, Repr

/-- Low-power mode of a core (Table 15.2 and R411). -/
inductive CoreMode where
  | run
  | wait
  | idle
  | retention
  | off
  deriving DecidableEq, Repr

/-- One array group of a core, by logical number; `fence` and `dead` are those of the physical group of that number. -/
structure Group where
  fence : BitVec 16
  dead : Bool
  active : List (Option Tile)
  shadow : List (Option Tile)
  loading : Option LoadP
  feed : Option FeedCfg
  drain : Option DrainCfg
  outlier : Option OutlierCfg
  sound : Option SoundCfg
  passCount : Nat
  window : Nat
  samples : Nat
  skipped : Nat
  lastHigh : Bool
  tilesLost : Bool
  run : Option Run
  deriving DecidableEq, Repr

/-- A sample in the sampler (R146): group, tag, the pass and its tiles, the window and the selected arrays, the rows
captured with their source activations, the outlier rows, and the pass's contributions y, one list per row. -/
structure Sample where
  group : GroupId
  tag : BitVec 12
  pass : PassP
  tiles : List (Option Tile)
  window : Nat
  select : Nat
  rows : Nat
  src : List (List W32)
  rowMap : List (Option Nat)
  ys : List (List W32)
  time : W64
  workItem : W32
  context : CtxId
  captured : Bool
  deriving DecidableEq, Repr

/-- The sampler of a core (R143, R149). -/
structure Sampler where
  sample : Option Sample
  lastFault : Option Nat
  fenced : Bool
  deriving DecidableEq, Repr

/-- The outcome of a work item as it waits in the base die's completion buffer (R399, R127). -/
structure WorkOutcome where
  item : WorkItem
  core : CoreId
  status : BitVec 16
  index : W32
  poison : Bool
  nan : Nat
  inf : Nat
  subn : Nat
  nancode : Nat
  sat : Nat
  deriving DecidableEq, Repr

/-- The part of a core that a pre-emption saves (R79, R133) beside the records in core store. -/
structure Saved where
  item : WorkItem
  pc : Nat
  regs : List W64
  flags : W32
  counters : List W32
  queues : List Entry
  stalled : Option Entry
  inflight : List Entry
  clash : List (Nat × Nat × Nat × Nat)
  bufs : List Buffer
  groups : List Group
  counts : List ArithCnt
  satMov : W32
  infMov : W32
  sndTaken : W32
  sndSkipped : W32
  poisonSeen : Bool
  passPoison : Bool
  nbPoison : Bool
  stalls : List W32
  waitLimit : W32
  wait : Waiting
  waitSince : Nat
  waitTick : Nat
  slot : Nat
  deriving DecidableEq, Repr

/-- One core (R19): sequencer, queues, groups, sampler, power and clock state. `clash` lists pairs of outstanding writes to
one byte range (R99) by place in program order; `undef` lists the byte ranges of core store whose contents are undefined
(R85, R99, R405), each with the number of its free values. -/
structure Core where
  item : Option WorkItem
  localQ : List WorkItem
  regs : List W64
  pc : Nat
  ord : Nat
  bufs : List Buffer
  queues : List Entry
  stalled : Option Entry
  inflight : List Entry
  clash : List (Nat × Nat × Nat × Nat)
  undef : List (Nat × Nat × Nat)
  wait : Waiting
  waitSince : Nat
  waitTick : Nat
  stalls : List W32
  flags : W32
  counters : List W32
  poisonSeen : Bool
  passPoison : Bool
  nbPoison : Bool
  coreMode : BitVec 3
  waitLimit : W32
  clkLoop : Bool
  loopLocked : Bool
  onLoop : Bool
  groups : List Group
  arith : List ArithCnt
  satMov : W32
  infMov : W32
  sndTaken : W32
  sndSkipped : W32
  sampler : Sampler
  lastCtx : Option CtxId
  slot : Nat
  saved : Option Saved
  preemptPending : Bool
  paused : Bool
  emergency : Bool
  fastStopped : Bool
  mode : CoreMode
  modeSince : Nat
  q : Nat
  tickBase : Nat
  tickSince : Nat
  fenced : Bool
  hot : Bool
  rateChanges : Nat
  rateFirst : Nat
  lastRate : Option Nat
  deriving DecidableEq, Repr

/-! ## Slices (chapters 06, 07, 08, 09) -/

/-- An entry of a channel's eddy (R173). -/
structure EddyEntry where
  blk : Nat
  data : BlockData
  mask : BitVec 32
  stamp : Nat
  deriving DecidableEq, Repr

/-- An access held by a retraining or critical channel (R179, R164). -/
inductive Held where
  | read (a : Coord)
  | write (a : Coord) (data : BlockData) (mask : BitVec 32) (poison : Bool)
  deriving DecidableEq, Repr

/-- A channel retrain in progress (Table 6.11). -/
structure Retrain where
  cause : RetrainCause
  since : Nat
  deriving DecidableEq, Repr

/-- A channel of a slice (R156, R157). -/
structure Chan where
  lost : Bool
  band : Nat
  step : Nat
  stepLow : Option Nat
  holdSince : Option Nat
  owed : Nat
  refreshRow : Nat
  openRows : List (Nat × Nat)
  openSince : List (Nat × Nat)
  eddy : List EddyEntry
  retrain : Option Retrain
  retrainPending : List RetrainCause
  retrainTimes : List Nat
  untrainable : Bool
  trainTemp : Int
  heldQ : List Held
  sparesData : List Nat
  spareCmd : Nat
  uncorr : List (Nat × Nat)
  laneErr : List (Nat × Nat × Nat)
  lastRead : Option (Coord × BlockData × Bool)
  acts : Nat
  suspends : Nat
  lastSuspendLog : Option Nat
  deriving DecidableEq, Repr

/-- A layer of a slice: its band, when its reading last stood at or above the lower boundary, its activity meter. -/
structure Layer where
  band : Nat
  below : Option Nat
  meter : Nat
  bSuspended : Bool
  deriving DecidableEq, Repr

/-- An entry of a slice's repair map (R184): unit, target rows in order, rows moved, poisoned blocks, complete. -/
structure RepairEntry where
  unit : RepairUnit
  targets : List Nat
  moved : Nat
  poisoned : Nat
  complete : Bool
  lastStep : Nat
  deriving DecidableEq, Repr

/-- Protection types (Table 7.3). -/
inductive PType where
  | weight
  | state
  | activation
  deriving DecidableEq, Repr

/-- A window of a bank-program launch (Table 9.2). -/
structure Window where
  first : Nat
  last : Nat
  write : Bool
  ptype : PType
  deriving DecidableEq, Repr

/-- Stream configuration of a unit (KVCFG, ROTCFG: R250, R251); `bad` when the prescale was computed from poisoned input. -/
structure StreamCfg where
  kfmt : Nat
  vfmt : Nat
  rot : Bool
  w : Nat
  prescale : W32
  bad : Bool
  accBase : Nat
  deriving DecidableEq, Repr

/-- Unit run state (Table 9.4). -/
inductive UnitSt where
  | idle | running | waiting | suspended | paused | ended | failed | fenced
  deriving DecidableEq, Repr

/-- A near-bank unit (Table 9.1) and its status word fields (Table 9.4). `wrote` lists the blocks that the unit was the
last to write (R202), `checkErrs` the times of the errors found in them. `segment` is when the segment held began and `chargedAt`
up to when it is charged; `segC`, `segU`, `segP` are a segment's corrected reads, uncorrectable or poisoned reads and poisoned
writes, each with its first block (R201). `taintX`, `taintR`, `taintS` are the registers, resident slots and scratch words that
hold values computed from poisoned or uncorrectable input. -/
structure BankUnit where
  st : UnitSt
  code : Nat
  pc : Nat
  mark : Byte
  segments : Nat
  forced : Nat
  corrections : Nat
  uncorr : Nat
  poisonedW : Nat
  refreshSusp : Bool
  classB : Bool
  fixed : Bool
  background : Bool
  prog : List W32
  x : List W32
  scratch : SMap W32
  resMant : SMap Byte
  resExp : SMap Byte
  stream : Option StreamCfg
  pos : W32
  rowsSinceSync : Nat
  ropeBase : W32
  ropeScale : W32
  ropePairs : Nat
  sr : Bool
  windows : List Window
  loops : List (Nat × Nat × Nat)
  segment : Option Nat
  chargedAt : Nat
  segC : Nat × Option Coord
  segU : Nat × Option Coord
  segP : Nat × Option Coord
  taintX : BitVec 16
  taintR : BitVec 8
  taintS : List Nat
  part : PartId
  ctx : CtxId
  workItem : W32
  launch : Nat
  pendingLaunch : Option Nat
  fencedU : Bool
  faults : List Nat
  checkErrs : List Nat
  wrote : List Nat
  deriving DecidableEq, Repr

/-- A launch known to a slice controller: its request, its core's place in program order, whether it was admitted, the program
and argument block read for it, its windows, and the final status words of the units that have ended. -/
structure Launch where
  id : Nat
  req : LaunchP
  ord : Nat
  admitted : Bool
  timingLogged : Bool
  prog : List W32
  args : List Byte
  windows : List Window
  final : SMap W64
  deriving DecidableEq, Repr

/-- The scrub engine of a slice (R205): next row, skipped row, counts of the pass. -/
structure Scrub where
  next : Nat
  skipped : Option Nat
  corrections : Nat
  uncorr : Nat
  deriving DecidableEq, Repr

/-- The slice above one core: controller, channels, layers, units, repairs, scrub. -/
structure Slice where
  chans : List Chan
  layers : List Layer
  units : SMap BankUnit
  liveWords : SMap W64
  launches : List Launch
  nextLaunch : Nat
  repairs : List RepairEntry
  selfRefresh : Bool
  scrub : Scrub
  lastCe : Option (Nat × Nat × Nat × Nat)
  hardBits : List (Nat × Nat × Nat)
  rowMarks : List (Nat × Nat)
  subMarks : List (Nat × Nat)
  bankMarks : List (Nat × Nat)
  weirUse : List (Nat × Nat × Nat)
  weirGrant : List Nat
  weirDemand : List (Nat × Nat × Nat)
  coarse : Bool
  deriving DecidableEq, Repr

/-! ## Regions, maps, far tier (chapter 08) -/

/-- Restore sources of a weight region (Table 8.3). -/
inductive Restore where
  | none
  | far
  | host
  deriving DecidableEq, Repr

/-- A region descriptor (Table 8.3) with its recovery state (R453): `todo` and `restored` are the lines, numbered as in the
restore source (R218), that a restore has still to rewrite and has rewritten. -/
structure Region where
  id : W32
  view : Nat
  ptype : PType
  readOnly : Bool
  part : PartId
  ctx : CtxId
  restore : Restore
  spillway : Bool
  slot4k : Nat
  base : Nat
  lines : Nat
  firstCore : Nat
  lastCore : Nat
  source : W64
  recovering : Bool
  fenced : Bool
  lost : Bool
  todo : List Nat
  restored : List Nat
  deriving DecidableEq, Repr

/-- A substitution of a lost channel's sets (R224): set j of global channel `lost` now lies in set `dset` of `donor`. -/
structure Subst where
  lost : Nat
  donors : List Nat
  deriving DecidableEq, Repr

/-- One substituted spread set. -/
structure SubSet where
  chan : Nat
  set : Nat
  donor : Nat
  dset : Nat
  deriving DecidableEq, Repr

/-- An epoch change (Table 8.4): its cause, the tower it fences or migrates, the global channels whose lines move, the sets
substituted and left unmapped in the prepared copy, the donors it named, the next set index of a migration. -/
structure EpochChange where
  cause : EpochCause
  tower : Option TowerId
  changed : List Nat
  subsets : List SubSet
  unmapped : List (Nat × Nat)
  donors : Nat
  migrated : Nat
  lines : Nat
  deriving DecidableEq, Repr

/-- The map of the package (R221-R226, R237): `out` are the global channels that the map in force maps to no line. -/
structure MapSt where
  spread16m : BitVec 6
  epoch : W32
  change : Option EpochChange
  queue : List EpochChange
  substs : Nat
  subsets : List SubSet
  unmapped : List (Nat × Nat)
  out : List Nat
  eraseSince : Option Nat
  deriving DecidableEq, Repr

/-- A CXL port (R227-R231): state, log2 of lanes, rate, capacity in use, when it was last trained and last polled. -/
structure Far where
  st : Nat
  width : Nat
  rate : Nat
  cap : Nat
  attempts : Nat
  polledAt : Nat
  deriving DecidableEq, Repr

/-! ## Key/value cache (chapter 10) -/

/-- A descriptor of a context: its sequence number, and the connection it was submitted on when a peer sent it (R334, R367). -/
abbrev DescId := W32 × Option W32

/-- States of a sequence record (Table 10.5). -/
inductive SeqSt where
  | free | active | pageWait | ending
  deriving DecidableEq, Repr

/-- A sequence record (Table 10.5), with the scheduler's own notes: descriptors of the end and the narrowing that wait, the STEP
whose token is withheld, since when it waits for spills, whether wait_timeout has passed, its own status (R390). -/
structure Seq where
  ctx : CtxId
  seqId : W32
  part : PartId
  st : SeqSt
  priority : Byte
  evictable : Bool
  ring : Bool
  tokens : Nat
  firstPos : W32
  waitSince : Nat
  waitLogged : Bool
  firstCore : Nat
  coreCount : Nat
  lastStep : W32
  ringId : W32
  member : Byte
  members : Byte
  narrowPages : Nat
  landed : Bool
  passNo : Nat
  endDesc : Option DescId
  narrowDesc : Option DescId
  withheld : Option DescId
  allocSince : Option Nat
  expired : Bool
  own : BitVec 16
  deriving DecidableEq, Repr

/-- States of a page-table entry (Table 10.6). -/
inductive PageSt where
  | empty | resident | spilling | spilled | filling | lost | spread
  deriving DecidableEq, Repr

/-- A page-table entry (Table 10.6) with the moves pending on it. -/
structure Page where
  key : PageKey
  st : PageSt
  clean : Bool
  core : CoreId
  unit : UnitId
  row : Nat
  count : Nat
  pins : Nat
  gen : BitVec 16
  kfmt : Nat
  vfmt : Nat
  slot : Nat
  since : Nat
  copied : Bool
  migrate : Option (CoreId × UnitId × Nat × BitVec 16 × Nat)
  narrow : Option (Nat × Nat × Nat × BitVec 16)
  tailDue : Bool
  deriving DecidableEq, Repr

/-- A key/value configuration block (Table 10.4). -/
structure KvCfg where
  kfmt : Nat
  vfmt : Nat
  kfloor : Nat
  vfloor : Nat
  extent : Nat
  kvHeads : Nat
  layers : Nat
  qPerKv : Nat
  ropeBase : W32
  ropeScale : W32
  ropePairs : Nat
  waitTimeout : W32
  poolRegion : W32
  tableRegion : W32
  spillRegion : W32
  lowWater : Nat
  deriving DecidableEq, Repr

/-- An extent of a stream (R278): its first page, unit, first row, frames reserved, frames used, rows of a frame. -/
structure Extent where
  key : PageKey
  core : CoreId
  unit : UnitId
  row : Nat
  reserved : Nat
  used : Nat
  rows : Nat
  deriving DecidableEq, Repr

/-- States of a table record (Table 10.11). -/
inductive TableSt where
  | stable | building | draining
  deriving DecidableEq, Repr

/-- A table record (Table 10.11); `failed` when a builder of the rebuild under way has failed. -/
structure Table where
  id : W32
  ctx : CtxId
  st : TableSt
  committed : Bool
  arg0 : W64
  arg1 : W64
  version : W32
  builders : Nat
  failed : Bool
  oldUsers : Nat
  deriving DecidableEq, Repr

/-- A step in progress (R388-R390): its descriptor; the batch, each row a sequence and the descriptor its record belongs to; the
sequences of the batch without work; those still to be given pages; the plan table; the batch rows; the layers; the layer and phase handed out next; work
area used; work items not complete by layer and phase; the first failure with its work item and index. -/
structure StepRun where
  ctx : CtxId
  seq : DescId
  stepNo : W32
  batch : List (W32 × DescId)
  gone : List W32
  toAlloc : List W32
  planAddr : W64
  rows : List (W32 × Nat)
  layers : Nat
  layer : Nat
  phase : Nat
  areaUsed : Nat
  openItems : List (Nat × Nat × Nat)
  failed : Option (BitVec 16 × W32 × W32)
  poison : Bool
  deriving DecidableEq, Repr

/-! ## Links, clocks, time (chapter 11) -/

/-- One direction of a Burril link: sequence numbers, the replay buffer, the fail count, replays of the window. -/
structure LinkDir where
  sendSeq : BitVec 12
  recvSeq : BitVec 12
  replay : List Flit
  fails : Nat
  replays : Nat
  lastReplays : Nat
  delivered : List Flit
  credits : Nat
  discarding : Bool
  deriving DecidableEq, Repr

/-- A Burril link (Table 11.7): `spareA`, `spareB` whether a half's spare is spent, `windowAt` when its replay window began. -/
structure Link where
  spareA : Bool
  spareB : Bool
  windowAt : Nat
  st : Nat
  width : Nat
  oxA : Nat
  oxB : Nat
  fwd : LinkDir
  rev : LinkDir
  named : Option (Fin 66)
  quiesceReq : Bool
  diagnose : Bool
  deriving DecidableEq, Repr

/-- A die's clock loops (R304, R305). -/
structure DieClk where
  locked : Bool
  unlockedAt : Option Nat
  deriving DecidableEq, Repr

/-- Sync rounds (R308). -/
structure Sync where
  round : Nat
  open_ : Option (W32 × Nat)
  queued : Option W32
  lastAt : Nat
  periodMs : BitVec 10
  deriving DecidableEq, Repr

/-! ## Host interface (chapter 12) -/

/-- Function states (Table 12.6). -/
inductive FnSt where
  | init | ready | attached | refused | lost | safe
  deriving DecidableEq, Repr

/-- A completion record before it gets its phase (Table 12.10a). -/
structure Rec where
  seq : W32
  status : BitVec 16
  type : Byte
  poison : Bool
  held : Bool
  last : Bool
  irq : Bool
  tag : W64
  workItem : W32
  index : W32
  core : Nat
  deriving DecidableEq, Repr

/-- A function: ring block, host block, admin ring, heartbeat, MSI-X (Tables 12.5-12.7, 12.14). -/
structure Fn where
  st : FnSt
  before : FnSt
  enabled : Bool
  hostLo : W32
  hostHi : W32
  helloCount : BitVec 16
  busy : Bool
  stretched : Bool
  drvMajor : Byte
  drvMinor : Byte
  pollMax : BitVec 6
  agreedMinor : Byte
  heartbeatMs : BitVec 16
  beatWord : Option W64
  beatSame : Nat
  beatAt : Nat
  adminSq : W64
  adminCq : W64
  adminSlot : W64
  adminSqLog2 : Nat
  adminCqLog2 : Nat
  adminRecs : Nat
  adminInterval : Nat
  adminPollAt : Nat
  logRing : W64
  logLog2 : Nat
  driverTag : W64
  masked : W64
  pba : W64
  pendingHello : Bool
  flr : Bool
  deriving DecidableEq, Repr

/-- Context states (R343). -/
inductive CtxSt where
  | open_ | error | parked | closing
  deriving DecidableEq, Repr

/-- A fetched descriptor that has not completed (R334, R335). -/
structure Desc where
  seq : W32
  type : Byte
  irq : Bool
  quiet : Bool
  fence : Bool
  words : List W64
  started : Bool
  recsLeft : Nat
  peer : Option W32
  deriving DecidableEq, Repr

/-- A context (R329-R347, Table 12.11). -/
structure Ctx where
  num : CtxId
  st : CtxSt
  fn : FnId
  part : PartId
  priority : Byte
  vector : Nat
  net : Bool
  timerUs : Nat
  modCount : Nat
  sqBase : W64
  cqBase : W64
  slot : W64
  sqLog2 : Nat
  cqLog2 : Nat
  kv : Option KvCfg
  soundTable : W64
  soundSize : W32
  nextSeq : W32
  lastFetched : W32
  lastCompleted : W32
  sqTail : W32
  sqHead : W32
  cqHead : W32
  cqTail : W32
  descs : List Desc
  recs : List Rec
  notices : List Rec
  unsignalled : Nat
  firstUnsignalled : Nat
  interval : Nat
  nextPoll : Nat
  errStatus : BitVec 16
  errSeq : W32
  errPending : Bool
  destroySeq : Option (FnId × W32)
  peerStreams : List (W32 × W32)
  deriving DecidableEq, Repr

/-- A partition: its cores, its semaphore range per tower (R322, Table 12.10). -/
structure Part where
  cores : List Nat
  semFirst : Nat
  semCount : Nat
  deriving DecidableEq, Repr

/-! ## Network (chapter 13) -/

/-- A module Ethernet port (R352-R358). -/
structure Port where
  st : Nat
  speed : Nat
  slow : Bool
  secure : Bool
  spraying : Bool
  fails400 : Nat
  paused : BitVec 8
  ckn : Option (BitVec 128)
  pn : Nat
  sakGen : Nat
  discarded : Nat
  announced : Bool
  deriving DecidableEq, Repr

/-- A packet sent and not acknowledged (R361, R363). -/
structure Sent where
  psn : W32
  port : PortId
  stamp : Nat
  bytes : Nat
  resent : Nat
  later : Nat
  deriving DecidableEq, Repr

/-- Packets and frames Kegor sends: type (Table 13.4, or 0x100 and up for control frames), peer, port, words. -/
structure NetOut where
  type : Nat
  peer : Nat
  port : Nat
  flags : Byte
  conn : W32
  psn : W32
  a : W64
  b : W32
  payload : List W64
  head : Option CollHead
  poison : Bool
  deriving DecidableEq, Repr

/-- A connection (R359-R363), with the submit_mask read when it opened (R366). -/
structure Conn where
  num : W32
  peerConn : W32
  peer : BitVec 15
  part : PartId
  st : Nat
  attempts : Nat
  nextAttempt : Nat
  nextPsn : W32
  recvPsn : W32
  recvAhead : List W32
  unacked : Nat
  oldestUnacked : Nat
  outstanding : List Sent
  ceSeen : Nat
  ceAcked : Nat
  acked : Nat
  echo : Bool
  window : Nat
  srttUs : Nat
  lastUse : Nat
  lastRound : Nat
  roundCe : Nat
  mask : List W64
  lastTs : W32
  waiting : List NetOut
  deriving DecidableEq, Repr

/-- A liveness pair (R361): 0 up, 1 probed, 2 lost. -/
structure Pair where
  peer : BitVec 15
  port : PortId
  st : Nat
  lastAck : Nat
  lastProbe : Nat
  deriving DecidableEq, Repr

/-- A collective instance (R372-R375): `landed` are the ranges of data accepted, by rank, offset and length in bytes of the message;
`terms` the FP32 terms of a reduction, by rank and element; `bad` the elements with a poisoned term, by first and count; `chunks` the chunk table (send length and offset, receive length and
offset, in bytes); `exchanged` whether the members of a local one have met; `fetched` the number of the work item that issued it. -/
structure Coll where
  comm : W32
  seq : W32
  core : CoreId
  ord : Nat
  fetched : Nat
  ctx : CtxId
  part : PartId
  op : Nat
  dtype : Nat
  redop : Nat
  members : List Nat
  rank : Nat
  isLocal : Bool
  send : Nat
  recv : Nat
  count : Nat
  chunks : List (Nat × Nat × Nat × Nat)
  timeoutUs : Nat
  deadlines : List (Nat × Nat)
  paceUsed : Nat
  landed : List (Nat × Nat × Nat)
  terms : List (Nat × Nat × List W32)
  bad : List (Nat × Nat)
  exchanged : Bool
  status : Option (BitVec 16 × W32)
  poison : Bool
  desc : Rng
  deriving DecidableEq, Repr

/-- A DATA packet in an IO die's buffer: of a collective not yet issued (R365), or whose landing lines are held (R364). -/
structure Early where
  comm : W32
  seq : W32
  src : BitVec 15
  offset : Nat
  final : Bool
  payload : List W64
  head : Option CollHead
  poison : Bool
  die : Nat
  part : PartId
  deriving DecidableEq, Repr

/-- An IO die's packet buffer (R364): bytes held per partition, drops since the last log record. -/
structure PktBuf where
  held : List Nat
  drops : Nat
  lastLog : Option Nat
  deriving DecidableEq, Repr

/-- Network setup fields (Table 13.10). -/
structure NetRegs where
  laneB : BitVec 2
  laneA : BitVec 2
  modeB : BitVec 2
  modeA : BitVec 2
  portEn : W32
  portSel : BitVec 5
  macsec : W32
  valid : Bool
  module : BitVec 15
  addr : List W32
  gw : List W32
  ipv6 : Bool
  udpPort : BitVec 16
  dscp : BitVec 6
  ecnEn : Bool
  rtoMin : Byte
  targetUs : Byte
  maxWindow : BitVec 16
  peerLo : W32
  peerHi : W32
  peerCount : BitVec 16
  mark : BitVec 16
  early : BitVec 16
  bufLimit : List (BitVec 10)
  paceMaxMs : BitVec 16
  deriving DecidableEq, Repr

/-- A communicator's pace-hint state at the sender (R376). -/
structure PaceOut where
  comm : W32
  lastAt : Nat
  delayUs : Nat
  deriving DecidableEq, Repr

/-- The network of the module. -/
structure Net where
  regs : NetRegs
  ports : List Port
  conns : List Conn
  pairs : List Pair
  colls : List Coll
  early : List Early
  withdrawn : List (W32 × W32 × Nat × Nat)
  ended : List (W32 × W32)
  bufs : List PktBuf
  pacing : List PaceOut
  dropped : Nat
  completes : List (Nat × List W64)
  macsecLog : List (Nat × Nat)
  out : List NetOut
  deriving DecidableEq, Repr

/-! ## Firmware, power, thermal, errors, security (chapters 14-18) -/

/-- Processor states (Table 14.8). -/
inductive ProcSt where
  | running | restarting | heldDown | retention | off
  deriving DecidableEq, Repr

/-- A dump slot (R397) with the fields of its header: unacknowledged, island time at the restart (none: never written), the model's time,
cause, number of the FW_RESTART record, restarts, rollback value and version of the running slot, archived. -/
structure Dump where
  valid : Bool
  island : Option Nat
  bundle : W64
  stamp : Nat
  cause : Nat
  seq : W32
  restarts : Nat
  archived : Bool
  deriving DecidableEq, Repr

/-- A firmware processor (Table 14.1, R396-R400). -/
structure Proc where
  st : ProcSt
  restartTimes : List Nat
  causes : List Nat
  total : BitVec 16
  dumps : List Dump
  dumpLost : BitVec 16
  writes : List (Nat × Nat × W32)
  seq : W32
  inbound : Nat
  deriving DecidableEq, Repr

/-- Firmware setup fields and image state (Tables 14.8, 11.2). -/
structure Fw where
  spMs : Byte
  npMs : Byte
  tsMs : Byte
  mpMs : Byte
  procSel : BitVec 4
  dumpSlot : Bool
  dumpProc : BitVec 4
  trial : Bool
  running : Bool
  committed : Bool
  verA : Nat
  verB : Nat
  bundleA : W32
  bundleB : W32
  rollA : W32
  rollB : W32
  next : Bool
  rotateEn : Bool
  preemptDelta : Byte
  rotations : W32
  archive : List (Nat × Dump)
  deriving DecidableEq, Repr

/-- A point-of-load stage (R414-R416): setpoint [mV], requests, failures, held. -/
structure Stage where
  on : Bool
  setpoint : Nat
  pending : Option Nat
  queued : Option Nat
  fails : Nat
  held : Bool
  since : Nat
  deriving DecidableEq, Repr

/-- Power setup fields and cap state (Table 15.7): `samples` are the package power samples of the last 1 ms, newest first; `powerUp` the
domains in a strict power-up, each with its next step and the ready signals it has missed there (R419). -/
structure Pwr where
  capW : BitVec 12
  cause : Nat
  qMax : Nat
  effective : Nat
  meanW : Nat
  offMs : BitVec 16
  retUs : BitVec 16
  domKind : BitVec 2
  domIndex : BitVec 10
  stages : List Stage
  nearBank : List DomSt
  ports : List DomSt
  failed : List Nat
  ioLimit : List (Option Nat)
  ioAt : List (Option Nat)
  lastCapLog : Option Nat
  samples : List Nat
  powerUp : List (Nat × Nat × Nat)
  deriving DecidableEq, Repr

/-- A sensor (R421-R424): reading [0.25 degC], 0 in service, 1 suspect, 2 failed. -/
structure Sensor where
  reading : Int
  st : Nat
  suspects : List Nat
  deriving DecidableEq, Repr

/-- A hot spot: its prediction P [0.25 degC] and when it was published, readings of the last 1 ms, drift correction [0.05 degC] with
the run of comparisons above it, predictions of the last 5 ms, since when the spot's sensors disagree or agree and whether the
disagreement was judged, since when it is cool, its last clock step, its last r of at least 1.0 °C/ms in a pre-throttle, and
since when a hot core meets the conditions that clear its mark (R423-R434). -/
structure Spot where
  p : Int
  pAt : Option Nat
  r : Int
  history : List (Nat × Int)
  drift : Int
  driftRun : Nat
  past : List (Nat × Int)
  disagree : Option Nat
  agree : Option Nat
  coolSince : Option Nat
  lastStep : Nat
  preThrottle : Option Nat
  hotCool : Option Nat
  judged : Bool
  deriving DecidableEq, Repr

/-- A tower's thermal controller (R429-R432). -/
structure TowerThm where
  fastStop : Bool
  stops : List Nat
  derated : Bool
  coolSince : Option Nat
  stopAt : Nat
  lastPre : Option Nat
  lastDrift : Option Nat
  deriving DecidableEq, Repr

/-- Thermal setup fields and cooling state (Table 16.7); `limitMw` is the coolant limit in force in mW, coolant temperatures in 0.01 °C,
flows in 0.001 L/min. -/
structure Thm where
  outletMax : Byte
  riseMax : Byte
  flowLow : Byte
  glycol : BitVec 5
  margin : Byte
  inlet : Int
  outlet : Int
  coolSt : Nat
  limitMw : Nat
  flow : Nat
  request : Nat
  flowOkSince : Option Nat
  flowHist : List (Nat × Nat)
  outletOver : Nat
  lastFlowAt : Nat
  senseKind : BitVec 2
  senseIndex : BitVec 12
  towerSel : BitVec 3
  fastStops : Byte
  sensors : SMap Sensor
  spots : SMap Spot
  towers : List TowerThm
  lastSummary : Nat
  flowDis : Option Nat
  disagreeing : Bool
  coolAlert : Bool
  pldm : List (Nat × Int)
  orderly : Bool
  deriving DecidableEq, Repr

/-- A log record (Table 17.1); `under` is the record, by source and sequence number, whose span was open. The mirror's phase is computed
when it is written. -/
structure LogRec where
  code : BitVec 16
  severity : Nat
  nested : Bool
  preempts : Bool
  src : Source
  ctx : Option (CtxId × PartId)
  time : Nat
  seq : W32
  index : W32
  parent : W32
  status : BitVec 16
  repeats : BitVec 16
  location : W64
  detail : List W64
  under : Option (Source × W32)
  deriving DecidableEq, Repr

/-- A recovery that waits behind a span (Table 17.6). -/
inductive Recovery where
  | retrain (c : CoreId) (ch : ChanId) (cause : RetrainCause)
  | repair (c : CoreId) (u : RepairUnit)
  | channelLoss (c : CoreId) (ch : ChanId) (cause : ChanLossCause)
  deriving DecidableEq, Repr

/-- A handling span (R452): the resource's location, widened, the code of the record that opened it, severity, the opening record by source and sequence number
and, once the record is entered, by log_index; the recoveries queued behind it; whether a recovery pre-empted it. -/
structure Span where
  resource : W64
  code : BitVec 16
  severity : Nat
  src : Source
  seq : W32
  index : Option W32
  queue : List Recovery
  halted : Bool
  deriving DecidableEq, Repr

/-- A resource that a fence names (Table 17.11): kind, index, sub. -/
structure FenceId where
  kind : Nat
  index : Nat
  sub : Nat
  deriving DecidableEq, Repr

/-- The buffers of a record source (R449). -/
structure SrcBuf where
  src : Source
  buf : List LogRec
  seq : W32
  dropped : Nat
  deriving DecidableEq, Repr

/-- Errors and the device log (chapter 17). -/
structure Err where
  unmapped : W32
  entries : List LogRec
  nextIndex : W32
  overflow : BitVec 16
  timerUs : BitVec 16
  irqSeverity : BitVec 3
  sel : BitVec 10
  latch : List W64
  sources : List SrcBuf
  spans : List Span
  ready : List Recovery
  fences : List FenceId
  marks : List FenceId
  safe : Bool
  cause : Nat
  safeAt : Option Nat
  mirrorNext : Nat
  mirrorUnsig : Option Nat
  linkThresh : BitVec 16
  linkSel : BitVec 4
  deriving DecidableEq, Repr

/-- A mailbox session (R466, R468): the last request counter accepted, the counter of the next response. -/
structure Session where
  id : W32
  counter : W64
  sent : W64
  lastAt : Nat
  key : BitVec 512
  nonce : BitVec 256
  deriving DecidableEq, Repr

/-- A mailbox instance (R466, R467): the quote kept is its nonce, when it was signed, the draw of its key pair, and its bytes. -/
structure Mbox where
  data : SMap W32
  busy : Bool
  done : Bool
  status : BitVec 16
  session : Option Session
  quote : Option (BitVec 256 × Nat × Nat × List Byte)
  response : List Byte
  deriving DecidableEq, Repr

/-- The security subsystem (chapter 18). -/
structure Sec where
  regs : List (BitVec 512)
  identityLost : Bool
  owner : Option (List Byte)
  enabled : BitVec 6
  tripped : BitVec 6
  rollback : W32
  selftest : Nat
  farKeys : Option Nat
  caks : List (Nat × BitVec 128 × BitVec 256)
  mbox : List Mbox
  erasing : Option Nat
  keysGen : Nat
  bundle : SMap Byte
  bundleBad : Bool
  zeroised : Bool
  deriving DecidableEq, Repr

/-- Phase of the module's life (R484, R501, Table 12.3, R457). -/
inductive Phase where
  | off
  | standby
  | starting
  | booted
  | service
  deriving DecidableEq, Repr

/-- Supply and start state (chapter 20, Table 19.4): `warmNext` whether the next release of PERST_N is a warm start, `armed` whether the
glitch monitors are armed, `latches` the lid, seating and mesh latches. -/
structure Start where
  phase : Phase
  perst : Bool
  mv : Nat
  warm : Bool
  warmStarts : BitVec 12
  safeCause : Nat
  armed : Bool
  warmNext : Bool
  perstAt : Nat
  overvoltage : Bool
  latches : BitVec 3
  deriving DecidableEq, Repr

/-- A partition's weir configuration (Table 6.9). -/
structure WeirCfg where
  ceiling : BitVec 7
  share : BitVec 7
  protFloor : BitVec 7
  bgShare : BitVec 7
  deriving DecidableEq, Repr

/-- Memory, weir, near-bank setup registers (Tables 6.9, 6.10, 6.14, 7.6, 8.8, 9.12). -/
structure MemRegs where
  weir : List WeirCfg
  weirShadow : List (Option WeirCfg)
  cfgError : Bool
  holdUs : Byte
  predict : Bool
  t1 : Byte
  drift : Byte
  repairAuto : Bool
  pace : BitVec 3
  scrubEn : Bool
  periodH : Byte
  scrubPasses : W32
  ceCount : W32
  ctEnable : Bool
  ctCore : BitVec 9
  ctLoc : W32
  ctData : List W32
  ctCheck : W32
  ctSynd : W32
  ctBit : BitVec 9
  ctClass : BitVec 3
  ctLost : Bool
  ctOverwritten : Bool
  ctBusy : Bool
  ctOp : BitVec 3
  farPair : Bool
  farEnB : Bool
  farEnA : Bool
  fixedEn : Bool
  refreshDefer : BitVec 4
  classaSlice : BitVec 5
  classaChan : BitVec 4
  layerBudget : BitVec 16
  actsPerRef : Byte
  fenceSel : BitVec 9
  deriving DecidableEq, Repr

/-- An alarm history kept in a tower scheduler's journal (R153, R155). -/
structure SndHist where
  tower : TowerId
  ctx : CtxId
  tag : BitVec 12
  history : BitVec 16
  sinceRaise : Nat
  entryLevel : Nat
  entryEpoch : W32
  deriving DecidableEq, Repr

/-- A sounding record on its way to its tower scheduler (Table 5.7): its six words, its context and the fields that the
scheduler judges. -/
structure SndRec where
  tag : BitVec 12
  core : CoreId
  ctx : CtxId
  flags : Byte
  rhoAct : W32
  rhoTot : W32
  hasRef : Bool
  words : List W64
  deriving DecidableEq, Repr

/-- The level arguments a scheduler hands out for a tag (R154, Table 5.8 step 6). -/
structure LevelArg where
  tower : TowerId
  ctx : CtxId
  tag : BitVec 12
  level : Nat
  deriving DecidableEq, Repr

/-- The schedulers' work in hand (chapter 14). -/
structure Sched where
  waiting : List WorkItem
  outcomes : List WorkOutcome
  sounding : List SndRec
  hists : List SndHist
  levels : List LevelArg
  steps : List StepRun
  order : Nat
  deriving DecidableEq, Repr

/-- The state of Kegor. -/
structure State where
  /-- Commands waiting, first in, first out. -/
  pending : List Instr
  /-- Model time in ns; the idle step advances it (log entry 3). -/
  now : Nat
  /-- The model's own counter of free values drawn (log entry 2). -/
  free : Nat
  cores : SMap Core
  coreStore : Memory
  sems : SMap W32
  slices : SMap Slice
  dram : Memory
  farMem : Memory
  regions : List Region
  map : MapSt
  far : List Far
  mem : MemRegs
  seqs : List Seq
  pages : List Page
  extents : List Extent
  badRows : List (Nat × Nat × Nat)
  tables : List Table
  links : List Link
  clks : List DieClk
  sync : Sync
  fencedTowers : List Nat
  fns : List Fn
  ctxs : List Ctx
  parts : List Part
  hostMem : Memory
  msix : List (Nat × Nat)
  net : Net
  procs : List Proc
  fw : Fw
  sched : Sched
  pwr : Pwr
  thm : Thm
  err : Err
  sec : Sec
  start : Start
  deriving DecidableEq, Repr

/-! ## Reset values -/

/-- A group that holds no tile and no configuration (R132). -/
def Group.reset : Group where
  fence := 0
  dead := false
  active := List.replicate 16 none
  shadow := List.replicate 16 none
  loading := none
  feed := none
  drain := none
  outlier := none
  sound := none
  passCount := 0
  window := 0
  samples := 0
  skipped := 0
  lastHigh := false
  tilesLost := false
  run := none

/-- A core after a start: no work item, every register and counter 0, the reset values of Tables 4.5 and 15.3. -/
def Core.reset : Core where
  item := none
  localQ := []
  regs := List.replicate 32 0
  pc := 0
  ord := 0
  bufs := []
  queues := []
  stalled := none
  inflight := []
  clash := []
  undef := []
  wait := .none
  waitSince := 0
  waitTick := 0
  stalls := List.replicate 13 0
  flags := 0
  counters := List.replicate 16 0
  poisonSeen := false
  passPoison := false
  nbPoison := false
  coreMode := 0
  waitLimit := 0
  clkLoop := true
  loopLocked := true
  onLoop := true
  groups := List.replicate 8 Group.reset
  arith := List.replicate 8 ArithCnt.zero
  satMov := 0
  infMov := 0
  sndTaken := 0
  sndSkipped := 0
  sampler := { sample := none, lastFault := none, fenced := false }
  lastCtx := none
  slot := 0
  saved := none
  preemptPending := false
  paused := false
  emergency := false
  fastStopped := false
  mode := .run
  modeSince := 0
  q := 16
  tickBase := 0
  tickSince := 0
  fenced := false
  hot := false
  rateChanges := 0
  rateFirst := 0
  lastRate := none

/-- A channel in band 0, throttle step 0, with every spare unused (Table 6.2). -/
def Chan.reset : Chan where
  lost := false
  band := 0
  step := 0
  stepLow := none
  holdSince := none
  owed := 0
  refreshRow := 0
  openRows := []
  openSince := []
  eddy := []
  retrain := none
  retrainPending := []
  retrainTimes := []
  untrainable := false
  trainTemp := 0
  heldQ := []
  sparesData := List.replicate 12 1
  spareCmd := 1
  uncorr := []
  laneErr := []
  lastRead := none
  acts := 0
  suspends := 0
  lastSuspendLog := none

/-- A layer in band 0 with an empty meter. -/
def Layer.reset : Layer := { band := 0, below := none, meter := 0, bSuspended := false }

/-- An idle unit that has run no program (R240). -/
def BankUnit.reset : BankUnit where
  st := .idle
  code := 0
  pc := 0
  mark := 0
  segments := 0
  forced := 0
  corrections := 0
  uncorr := 0
  poisonedW := 0
  refreshSusp := false
  classB := false
  fixed := false
  background := false
  prog := []
  x := List.replicate 16 0
  scratch := []
  resMant := []
  resExp := []
  stream := none
  pos := 0
  rowsSinceSync := 0
  ropeBase := 0
  ropeScale := 0
  ropePairs := 0
  sr := false
  windows := []
  loops := []
  segment := none
  chargedAt := 0
  segC := (0, none)
  segU := (0, none)
  segP := (0, none)
  taintX := 0
  taintR := 0
  taintS := []
  part := 0
  ctx := 0
  workItem := 0
  launch := 0
  pendingLaunch := none
  fencedU := false
  faults := []
  checkErrs := []
  wrote := []

/-- A slice after the erase of a start (R472): nothing listed, no launch, no repair. -/
def Slice.reset : Slice where
  chans := List.replicate 4 Chan.reset
  layers := List.replicate 8 Layer.reset
  units := []
  liveWords := []
  launches := []
  nextLaunch := 0
  repairs := []
  selfRefresh := false
  scrub := { next := 0, skipped := none, corrections := 0, uncorr := 0 }
  lastCe := none
  hardBits := []
  rowMarks := []
  subMarks := []
  bankMarks := []
  weirUse := []
  weirGrant := []
  weirDemand := []
  coarse := false

/-- Weir configuration at reset: all memory time to P0 (Table 6.9). -/
def weirReset : List WeirCfg :=
  { ceiling := 64, share := 63, protFloor := 8, bgShare := 4 } ::
    List.replicate 15 { ceiling := 0, share := 0, protFloor := 0, bgShare := 0 }

/-- Memory registers at reset (Tables 6.9, 6.10, 6.14, 7.6, 8.8, 9.12). -/
def MemRegs.reset : MemRegs where
  weir := weirReset
  weirShadow := List.replicate 16 none
  cfgError := false
  holdUs := 100
  predict := true
  t1 := 101
  drift := 15
  repairAuto := true
  pace := 1
  scrubEn := true
  periodH := 24
  scrubPasses := 0
  ceCount := 0
  ctEnable := false
  ctCore := 0
  ctLoc := 0x00100000
  ctData := List.replicate 8 0
  ctCheck := 0
  ctSynd := 0
  ctBit := 0
  ctClass := 0
  ctLost := false
  ctOverwritten := false
  ctBusy := false
  ctOp := 0
  farPair := false
  farEnB := false
  farEnA := false
  fixedEn := true
  refreshDefer := 6
  classaSlice := 24
  classaChan := 8
  layerBudget := 5120
  actsPerRef := 16
  fenceSel := 0

/-- The map at reset (Table 8.8). -/
def MapSt.reset : MapSt where
  spread16m := 4
  epoch := 0
  change := none
  queue := []
  substs := 0
  subsets := []
  unmapped := []
  out := []
  eraseSince := none

/-- A CXL port that is off (Table 8.8). -/
def Far.reset : Far := { st := 0, width := 0, rate := 0, cap := 0, attempts := 0, polledAt := 0 }

/-- An idle link direction. -/
def LinkDir.reset : LinkDir where
  sendSeq := 0
  recvSeq := 0
  replay := []
  fails := 0
  replays := 0
  lastReplays := 0
  delivered := []
  credits := 0
  discarding := false

/-- A link before training (Table 11.7). -/
def Link.reset : Link where
  spareA := false
  spareB := false
  windowAt := 0
  st := 0
  width := 0
  oxA := 63
  oxB := 63
  fwd := LinkDir.reset
  rev := LinkDir.reset
  named := none
  quiesceReq := false
  diagnose := false

/-- A function before start-up step 4 (Table 12.14); the PF is enabled, the VFs are not. -/
def Fn.reset (pf : Bool) : Fn where
  st := .init
  before := .init
  enabled := pf
  hostLo := 0
  hostHi := 0
  helloCount := 0
  busy := false
  stretched := false
  drvMajor := 0
  drvMinor := 0
  pollMax := 20
  agreedMinor := 0
  heartbeatMs := 0
  beatWord := none
  beatSame := 0
  beatAt := 0
  adminSq := 0
  adminCq := 0
  adminSlot := 0
  adminSqLog2 := 0
  adminCqLog2 := 0
  adminRecs := 0
  adminInterval := 0
  adminPollAt := 0
  logRing := 0
  logLog2 := 0
  driverTag := 0
  masked := 0xFFFFFFFFFFFFFFFF
  pba := 0
  pendingHello := false
  flr := false

/-- Partition 0 owns every core and semaphore until the first PART_SET; the others own none. -/
def partsReset : List Part :=
  { cores := List.range 512, semFirst := 0, semCount := 4096 } ::
    List.replicate 15 { cores := [], semFirst := 0, semCount := 0 }

/-- Network fields at reset (Table 13.10). -/
def NetRegs.reset : NetRegs where
  laneB := 2
  laneA := 2
  modeB := 0
  modeA := 0
  portEn := 0xFFFFFFFF
  portSel := 0
  macsec := 0
  valid := false
  module := 0
  addr := [0, 0, 0, 0]
  gw := [0, 0, 0, 0]
  ipv6 := false
  udpPort := 17924
  dscp := 0
  ecnEn := true
  rtoMin := 24
  targetUs := 10
  maxWindow := 512
  peerLo := 0
  peerHi := 0
  peerCount := 0
  mark := 384
  early := 16
  bufLimit := List.replicate 16 736
  paceMaxMs := 50

/-- A port that is down. -/
def Port.reset : Port where
  st := 0
  speed := 0
  slow := false
  secure := false
  spraying := false
  fails400 := 0
  paused := 0
  ckn := none
  pn := 0
  sakGen := 0
  discarded := 0
  announced := false

/-- The network at reset. -/
def Net.reset : Net where
  regs := NetRegs.reset
  ports := List.replicate 32 Port.reset
  conns := []
  pairs := []
  colls := []
  early := []
  withdrawn := []
  ended := []
  bufs := List.replicate 2 { held := List.replicate 16 0, drops := 0, lastLog := none }
  pacing := []
  dropped := 0
  completes := []
  macsecLog := []
  out := []

/-- A dump slot that was never written. -/
def Dump.reset : Dump := { valid := false, island := none, bundle := 0, stamp := 0, cause := 0, seq := 0, restarts := 0, archived := false }

/-- A processor held in reset before the headwater releases it (Table 14.8: state reads 0). -/
def Proc.reset : Proc where
  st := .running
  restartTimes := []
  causes := []
  total := 0
  dumps := [Dump.reset, Dump.reset]
  dumpLost := 0
  writes := []
  seq := 0
  inbound := 0

/-- Firmware fields at reset (Tables 14.8, 11.2); slot A is committed and running (log entry 6). -/
def Fw.reset : Fw where
  spMs := 20
  npMs := 20
  tsMs := 20
  mpMs := 20
  procSel := 0
  dumpSlot := false
  dumpProc := 0
  trial := false
  running := false
  committed := false
  verA := 0
  verB := 0
  bundleA := 0
  bundleB := 0
  rollA := 0
  rollB := 0
  next := false
  rotateEn := true
  preemptDelta := 32
  rotations := 0
  archive := []

/-- A stage at the rail of q = 16 (Table 15.4). -/
def Stage.reset : Stage where
  on := true
  setpoint := 800
  pending := none
  queued := none
  fails := 0
  held := false
  since := 0

/-- Power fields at reset (Table 15.7). -/
def Pwr.reset : Pwr where
  capW := 2400
  cause := 0
  qMax := 16
  effective := 2400
  meanW := 0
  offMs := 1000
  retUs := 100
  domKind := 0
  domIndex := 0
  stages := List.replicate 11 Stage.reset
  nearBank := List.replicate 8 .on
  ports := [.on, .off, .off, .on, .on]
  failed := []
  ioLimit := [none, none]
  ioAt := [none, none]
  lastCapLog := none
  samples := []
  powerUp := []

/-- A sensor at its reset reading (Table 16.7). -/
def Sensor.reset : Sensor := { reading := 0, st := 0, suspects := [] }

/-- A hot spot with no prediction yet. -/
def Spot.reset : Spot where
  p := 0
  pAt := none
  r := 0
  history := []
  drift := 0
  driftRun := 0
  past := []
  disagree := none
  agree := none
  coolSince := none
  lastStep := 0
  preThrottle := none
  hotCool := none
  judged := false

/-- A tower with no fast stop. -/
def TowerThm.reset : TowerThm where
  fastStop := false
  stops := []
  derated := false
  coolSince := none
  stopAt := 0
  lastPre := none
  lastDrift := none

/-- Thermal fields at reset (Table 16.7). -/
def Thm.reset : Thm where
  outletMax := 47
  riseMax := 12
  flowLow := 36
  glycol := 0
  margin := 5
  inlet := 0
  outlet := 0
  coolSt := 0
  limitMw := 4095000
  flow := 0
  request := 100
  flowOkSince := none
  flowHist := []
  outletOver := 0
  lastFlowAt := 0
  senseKind := 0
  senseIndex := 0
  towerSel := 0
  fastStops := 0
  sensors := []
  spots := []
  towers := List.replicate 8 TowerThm.reset
  lastSummary := 0
  flowDis := none
  disagreeing := false
  coolAlert := false
  pldm := []
  orderly := false

/-- Error fields at reset (Tables 17.11, 11.7). -/
def Err.reset : Err where
  unmapped := 0
  entries := []
  nextIndex := 0
  overflow := 0
  timerUs := 1000
  irqSeverity := 2
  sel := 0
  latch := List.replicate 16 0
  sources := []
  spans := []
  ready := []
  fences := []
  marks := []
  safe := false
  cause := 0
  safeAt := none
  mirrorNext := 0
  mirrorUnsig := none
  linkThresh := 64
  linkSel := 0

/-- An idle mailbox instance (Table 18.7). -/
def Mbox.reset : Mbox where
  data := []
  busy := false
  done := false
  status := 0
  session := none
  quote := none
  response := []

/-- The security subsystem of a delivered module: no owner, identity valid, every response enabled (Table 18.7). -/
def Sec.reset : Sec where
  regs := List.replicate 16 0
  identityLost := false
  owner := none
  enabled := 0x3F
  tripped := 0
  rollback := 0
  selftest := 0
  farKeys := none
  caks := []
  mbox := [Mbox.reset, Mbox.reset]
  erasing := none
  keysGen := 0
  bundle := []
  bundleBad := false
  zeroised := false

/-- Supply at reset: 48 V, the standby stage powered, PERST_N asserted (R484, R501). -/
def Start.reset : Start where
  phase := .standby
  perst := true
  mv := 48000
  warm := false
  warmStarts := 0
  safeCause := 0
  armed := true
  warmNext := false
  perstAt := 0
  overvoltage := false
  latches := 0

/-- The machine right after reset: the cold start of R484 has begun at step 2 of Table 20.4. -/
def State.reset : State where
  pending := []
  now := 0
  free := 0
  cores := []
  coreStore := []
  sems := []
  slices := []
  dram := []
  farMem := []
  regions := []
  map := MapSt.reset
  far := [Far.reset, Far.reset]
  mem := MemRegs.reset
  seqs := []
  pages := []
  extents := []
  badRows := []
  tables := []
  links := List.replicate 14 Link.reset
  clks := List.replicate 10 { locked := true, unlockedAt := none }
  sync := { round := 0, open_ := none, queued := none, lastAt := 0, periodMs := 100 }
  fencedTowers := []
  fns := Fn.reset true :: List.replicate 15 (Fn.reset false)
  ctxs := []
  parts := partsReset
  hostMem := []
  msix := []
  net := Net.reset
  procs := List.replicate 12 Proc.reset
  fw := Fw.reset
  sched := { waiting := [], outcomes := [], sounding := [], hists := [], levels := [], steps := [], order := 0 }
  pwr := Pwr.reset
  thm := Thm.reset
  err := Err.reset
  sec := Sec.reset
  start := Start.reset

end Sys2Proof.Machine
end

