-- ==== Sys2Proof/Machine/Flags.lean ====
section
/-! DEFINITION. Status codes (Tables 17.5, 18.8) and event codes with their severities (Tables 17.4, 18.8). -/

namespace Sys2Proof.Machine

/-- An event code (R447) with its severity (Table 17.2). -/
structure Ev where
  code : BitVec 16
  severity : Nat
  deriving DecidableEq, Repr

/-! ## Statuses (R448) -/

/-- Success. -/
def stOk : BitVec 16 := 0
def stCfgLocked : BitVec 16 := 0x0001
def stCfgRange : BitVec 16 := 0x0002
def stSecLocked : BitVec 16 := 0x0003
def stNotPermitted : BitVec 16 := 0x0004
def stSafe : BitVec 16 := 0x0005
def stCancelled : BitVec 16 := 0x0006
def stDataPoison : BitVec 16 := 0x0007
def stTowerFenced : BitVec 16 := 0x0008
def stSemFenced : BitVec 16 := 0x0009
def stRegionFenced : BitVec 16 := 0x000A
def stStateLost : BitVec 16 := 0x000B
def stPassShape : BitVec 16 := 0x0301
def stPassNoTile : BitVec 16 := 0x0302
def stPassBounds : BitVec 16 := 0x0303
def stPassRecordWrite : BitVec 16 := 0x0304
def stPassFormat : BitVec 16 := 0x0305
def stPassPoison : BitVec 16 := 0x0306
def stArrayFault : BitVec 16 := 0x0307
def stIllegalInstr : BitVec 16 := 0x0401
def stPcRange : BitVec 16 := 0x0402
def stBufUnbound : BitVec 16 := 0x0403
def stBufBounds : BitVec 16 := 0x0404
def stBufAlign : BitVec 16 := 0x0405
def stBufReadonly : BitVec 16 := 0x0406
def stBufEmpty : BitVec 16 := 0x0407
def stBufAlias : BitVec 16 := 0x0408
def stBindOverlap : BitVec 16 := 0x0409
def stBindRange : BitVec 16 := 0x040A
def stMoveAddr : BitVec 16 := 0x040B
def stFmtUnsupported : BitVec 16 := 0x040C
def stNbTarget : BitVec 16 := 0x040D
def stSemRange : BitVec 16 := 0x040E
def stWaitTimeout : BitVec 16 := 0x040F
def stRegionRange : BitVec 16 := 0x0801
def stRegionOverlap : BitVec 16 := 0x0802
def stRegionFull : BitVec 16 := 0x0803
def stNbArgs : BitVec 16 := 0x090A
def stNbClass : BitVec 16 := 0x090B
def stKvConfig : BitVec 16 := 0x0A01
def stKvExhausted : BitVec 16 := 0x0A02
def stKvLost : BitVec 16 := 0x0A03
def stRingAbort : BitVec 16 := 0x0A04
def stTableBusy : BitVec 16 := 0x0A05
def stRefused : BitVec 16 := 0x0C01
def stRingOverrun : BitVec 16 := 0x0C02
def stRingSeq : BitVec 16 := 0x0C03
def stDescInvalid : BitVec 16 := 0x0C04
def stHostDma : BitVec 16 := 0x0C05
def stHostLost : BitVec 16 := 0x0C06
def stSeqExists : BitVec 16 := 0x0C07
def stSeqUnknown : BitVec 16 := 0x0C08
def stSeqBusy : BitVec 16 := 0x0C09
def stSoundRange : BitVec 16 := 0x0C0A
def stCtxFull : BitVec 16 := 0x0C0B
def stCtxInvalid : BitVec 16 := 0x0C0C
def stCtxBusy : BitVec 16 := 0x0C0D
def stCollInvalid : BitVec 16 := 0x0D01
def stCollMismatch : BitVec 16 := 0x0D02
def stCollTimeout : BitVec 16 := 0x0D03
def stCollWithdrawn : BitVec 16 := 0x0D04
def stNetPeerLost : BitVec 16 := 0x0D05
def stNetDown : BitVec 16 := 0x0D06
def stSecBusy : BitVec 16 := 0x1201
def stSecAuth : BitVec 16 := 0x1202
def stSecFormat : BitVec 16 := 0x1203
def stSecNoSession : BitVec 16 := 0x1204
def stSecNoIdentity : BitVec 16 := 0x1205
def stSecImage : BitVec 16 := 0x1206
def stSecRollback : BitVec 16 := 0x1207

/-- The status of a near-bank status-word code 0x01-0x09 (Table 17.5). -/
def stNb (code : Nat) : BitVec 16 := 0x0900 + BitVec.ofNat 16 code

/-- The status of a nonzero END register value (R448). -/
def stProgram (v : W64) : BitVec 16 := 0xF000 + BitVec.ofNat 16 (v.toNat % 4096)

/-! ## Events (R447) -/

def evArrayRetry : Ev := { code := 0x0301, severity := 1 }
def evArrayFenced : Ev := { code := 0x0302, severity := 2 }
def evGroupFenced : Ev := { code := 0x0303, severity := 2 }
def evArithNonfinite : Ev := { code := 0x0501, severity := 0 }
def evArithSaturation : Ev := { code := 0x0502, severity := 0 }
def evSoundingFault : Ev := { code := 0x0503, severity := 1 }
def evPrecisionAlarm : Ev := { code := 0x0504, severity := 2 }
def evPrecisionEscalated : Ev := { code := 0x0505, severity := 0 }
def memLayerCritical : Ev := { code := 0x0601, severity := 2 }
def memThrottleProtected : Ev := { code := 0x0602, severity := 0 }
def memEddyPoison : Ev := { code := 0x0603, severity := 3 }
def memRetrainStart : Ev := { code := 0x0604, severity := 0 }
def memRetrainDone : Ev := { code := 0x0605, severity := 0 }
def memSpareUsed : Ev := { code := 0x0606, severity := 1 }
def memRetrainFail : Ev := { code := 0x0607, severity := 2 }
def memRepairStart : Ev := { code := 0x0608, severity := 0 }
def memRepairDone : Ev := { code := 0x0609, severity := 1 }
def memRepairNoReserve : Ev := { code := 0x060A, severity := 2 }
def memChannelLost : Ev := { code := 0x060B, severity := 3 }
def weirCfgInvalid : Ev := { code := 0x060C, severity := 0 }
def memCe : Ev := { code := 0x0701, severity := 1 }
def memUe : Ev := { code := 0x0702, severity := 2 }
def memDoErr : Ev := { code := 0x0703, severity := 2 }
def memRestored : Ev := { code := 0x0704, severity := 1 }
def memNbCode : Ev := { code := 0x0705, severity := 1 }
def memScrubPass : Ev := { code := 0x0706, severity := 0 }
def memMapEpochAdv : Ev := { code := 0x0801, severity := 0 }
def memSpreadSubst : Ev := { code := 0x0802, severity := 2 }
def memSpareExhausted : Ev := { code := 0x0803, severity := 3 }
def memFarLink : Ev := { code := 0x0804, severity := 2 }
def memFarPoison : Ev := { code := 0x0805, severity := 2 }
def memFarDevice : Ev := { code := 0x0806, severity := 0 }
def memSpillFail : Ev := { code := 0x0807, severity := 1 }
def nbuFault : Ev := { code := 0x0901, severity := 2 }
def nbuFenced : Ev := { code := 0x0902, severity := 2 }
def nbuTiming : Ev := { code := 0x0903, severity := 0 }
def nbuRefreshSuspend : Ev := { code := 0x0904, severity := 0 }
def evKvPageWait : Ev := { code := 0x0A01, severity := 0 }
def evKvExhausted : Ev := { code := 0x0A02, severity := 3 }
def evKvMigrated : Ev := { code := 0x0A03, severity := 0 }
def evKvLost : Ev := { code := 0x0A04, severity := 3 }
def evRingAbort : Ev := { code := 0x0A05, severity := 3 }
def evTableCommit : Ev := { code := 0x0A06, severity := 0 }
def evTableAbort : Ev := { code := 0x0A07, severity := 2 }
def evClkUnlock : Ev := { code := 0x0B01, severity := 2 }
def evLinkRetryHigh : Ev := { code := 0x0B02, severity := 1 }
def evLinkOxbow : Ev := { code := 0x0B03, severity := 1 }
def evLinkHalf : Ev := { code := 0x0B04, severity := 2 }
def evLinkDead : Ev := { code := 0x0B05, severity := 2 }
def evTowerFenced : Ev := { code := 0x0B06, severity := 3 }
def ringHostAttach : Ev := { code := 0x0C01, severity := 0 }
def ringHelloRefused : Ev := { code := 0x0C02, severity := 2 }
def ringHostLost : Ev := { code := 0x0C03, severity := 2 }
def ringCtxError : Ev := { code := 0x0C04, severity := 2 }
def netPortUp : Ev := { code := 0x0D01, severity := 0 }
def netPortDown : Ev := { code := 0x0D02, severity := 2 }
def netPortTrainFail : Ev := { code := 0x0D03, severity := 2 }
def netMacsecFail : Ev := { code := 0x0D04, severity := 2 }
def netPathLost : Ev := { code := 0x0D05, severity := 1 }
def netPeerLost : Ev := { code := 0x0D06, severity := 2 }
def netBufDrop : Ev := { code := 0x0D07, severity := 1 }
def netSubmitDenied : Ev := { code := 0x0D08, severity := 2 }
def netPaceSent : Ev := { code := 0x0D09, severity := 0 }
def netWithdrawSent : Ev := { code := 0x0D0A, severity := 2 }
def netWithdrawRecv : Ev := { code := 0x0D0B, severity := 2 }
def fwRestart : Ev := { code := 0x0E01, severity := 2 }
def fwHeldDown : Ev := { code := 0x0E02, severity := 3 }
def fwHoldCleared : Ev := { code := 0x0E03, severity := 0 }
def fwDumpLost : Ev := { code := 0x0E04, severity := 1 }
def fwImageTrial : Ev := { code := 0x0E05, severity := 0 }
def fwRollback : Ev := { code := 0x0E06, severity := 2 }
def fwImageReload : Ev := { code := 0x0E07, severity := 1 }
def pwrAvsTimeout : Ev := { code := 0x0F01, severity := 2 }
def pwrStageFault : Ev := { code := 0x0F02, severity := 3 }
def pwrCapLimit : Ev := { code := 0x0F03, severity := 0 }
def pwrWakeFail : Ev := { code := 0x0F04, severity := 2 }
def thmSensorSuspect : Ev := { code := 0x1001, severity := 1 }
def thmSensorFailed : Ev := { code := 0x1002, severity := 2 }
def thmDisagree : Ev := { code := 0x1003, severity := 2 }
def thmModelDrift : Ev := { code := 0x1004, severity := 0 }
def thmPrethrottle : Ev := { code := 0x1005, severity := 0 }
def thmFastStop : Ev := { code := 0x1006, severity := 2 }
def thmFastStopRelease : Ev := { code := 0x1007, severity := 0 }
def thmTowerDerate : Ev := { code := 0x1008, severity := 2 }
def thmArrayAbort : Ev := { code := 0x1009, severity := 0 }
def thmFlowLow : Ev := { code := 0x100A, severity := 2 }
def thmFlowStop : Ev := { code := 0x100B, severity := 4 }
def thmSummary : Ev := { code := 0x100C, severity := 0 }
def errCfgReject : Ev := { code := 0x1101, severity := 0 }
def errLogOverflow : Ev := { code := 0x1102, severity := 2 }
def errStateLoss : Ev := { code := 0x1103, severity := 3 }
def errRegionFenced : Ev := { code := 0x1104, severity := 3 }
def errCoreFenced : Ev := { code := 0x1105, severity := 2 }
def errFenceCleared : Ev := { code := 0x1106, severity := 0 }
def errSafeEnter : Ev := { code := 0x1107, severity := 4 }
def secBootMeasured : Ev := { code := 0x1201, severity := 0 }
def secAuthFail : Ev := { code := 0x1202, severity := 2 }
def secOwnerChange : Ev := { code := 0x1203, severity := 0 }
def secResponseChanged : Ev := { code := 0x1204, severity := 0 }
def secTamper : Ev := { code := 0x1205, severity := 4 }
def secZeroised : Ev := { code := 0x1206, severity := 3 }
def secEraseDone : Ev := { code := 0x1207, severity := 3 }

end Sys2Proof.Machine
end

