-- ==== Sys2Proof/Machine/Ops.lean ====
section
/-! DEFINITION. The named operations over memories, cores, slices, records and signals that every command is written with. -/

namespace Sys2Proof.Machine

/-- What a command answers. -/
abbrev Out := Host.Outcome State Fault Refusal

/-! ## Sparse maps and memories -/

/-- The entry of a key. -/
def smGet {α : Type} : List (Nat × α) → Nat → Option α
  | [], _ => none
  | (k, v) :: t, a => if k = a then some v else smGet t a

/-- The map with a key set, keys kept rising. -/
def smSet {α : Type} : List (Nat × α) → Nat → α → List (Nat × α)
  | [], a, v => [(a, v)]
  | (k, x) :: t, a, v => if a < k then (a, v) :: (k, x) :: t else if a = k then (a, v) :: t else (k, x) :: smSet t a v

/-- The map without a key. -/
def smErase {α : Type} : List (Nat × α) → Nat → List (Nat × α)
  | [], _ => []
  | (k, x) :: t, a => if a = k then t else (k, x) :: smErase t a

/-- Keys strictly rising, all above a bound when one is given. -/
def rising {α : Type} : Option Nat → List (Nat × α) → Bool
  | _, [] => true
  | none, (k, _) :: t => rising (some k) t
  | some b, (k, _) :: t => decide (b < k) && rising (some k) t

/-- One byte of a memory whose unlisted addresses read as `d`. -/
def memRead (d : Nat → Byte) (m : Memory) (a : Nat) : Byte := (smGet m a).getD (d a)

/-- A memory with one byte written, in canonical form. -/
def memWrite (d : Nat → Byte) (m : Memory) (a : Nat) (v : Byte) : Memory :=
  if v = d a then smErase m a else smSet m a v

/-- A memory with consecutive bytes written. -/
def memWriteList (d : Nat → Byte) : Memory → Nat → List Byte → Memory
  | m, _, [] => m
  | m, a, b :: bs => memWriteList d (memWrite d m a b) (a + 1) bs

/-- Consecutive bytes of a memory. -/
def memReadList (d : Nat → Byte) (m : Memory) (a n : Nat) : List Byte := (List.range n).map (fun i => memRead d m (a + i))

/-- The canonical form of a memory: addresses strictly rising, no entry equal to what an unlisted address reads as. -/
def Memory.wf (d : Nat → Byte) (m : Memory) : Bool := rising none m && m.all (fun c => c.2 != d c.1)

/-- A sparse map of words with one default, in canonical form. -/
def smPut {α : Type} [DecidableEq α] (d : α) (m : List (Nat × α)) (a : Nat) (v : α) : List (Nat × α) :=
  if v = d then smErase m a else smSet m a v

/-- Unlisted bytes of core store, host memory and far memory read as 0 (log entries 4, 5). -/
def zeroByte : Nat → Byte := fun _ => 0

/-- Unlisted bytes of slice memory: data 0 with the check word 0x5A5AA5A5 that the erase of a start writes (R472). A
block takes 36 addresses: 32 data bytes, then the check word, little-endian. -/
def dramDefault (a : Nat) : Byte := if a % 36 < 32 then 0 else if a % 36 < 34 then 0xA5 else 0x5A

/-! ## Lists -/

/-- Applies a change to the members that a test picks. -/
def updWhere {α : Type} (p : α → Bool) (f : α → α) (l : List α) : List α := l.map (fun x => if p x then f x else x)

/-! ## Cores and slices -/

/-- A core. -/
def State.core (s : State) (c : CoreId) : Core := (smGet s.cores c.val).getD Core.reset
/-- The state with one core replaced. -/
def State.setCore (s : State) (c : CoreId) (k : Core) : State := { s with cores := smSet s.cores c.val k }
/-- The state with one core changed. -/
def State.modCore (s : State) (c : CoreId) (f : Core → Core) : State := s.setCore c (f (s.core c))

/-- A slice. -/
def State.slice (s : State) (c : CoreId) : Slice := (smGet s.slices c.val).getD Slice.reset
/-- The state with one slice replaced. -/
def State.setSlice (s : State) (c : CoreId) (k : Slice) : State := { s with slices := smSet s.slices c.val k }
/-- The state with one slice changed. -/
def State.modSlice (s : State) (c : CoreId) (f : Slice → Slice) : State := s.setSlice c (f (s.slice c))

/-- A channel of a slice. -/
def Slice.chan (k : Slice) (ch : ChanId) : Chan := k.chans.getD ch.val Chan.reset
/-- The state with one channel changed. -/
def State.modChan (s : State) (c : CoreId) (ch : ChanId) (f : Chan → Chan) : State :=
  s.modSlice c (fun k => { k with chans := k.chans.modify ch.val f })
/-- A channel. -/
def State.chan (s : State) (c : CoreId) (ch : ChanId) : Chan := (s.slice c).chan ch

/-- A near-bank unit. -/
def State.unit (s : State) (c : CoreId) (u : UnitId) : BankUnit := (smGet (s.slice c).units u.val).getD BankUnit.reset
/-- The state with one unit changed. -/
def State.modUnit (s : State) (c : CoreId) (u : UnitId) (f : BankUnit → BankUnit) : State :=
  s.modSlice c (fun k => { k with units := smSet k.units u.val (f ((smGet k.units u.val).getD BankUnit.reset)) })

/-- A group of a core. -/
def Core.group (k : Core) (g : GroupId) : Group := k.groups.getD g.val Group.reset
/-- The core with one group changed. -/
def Core.modGroup (k : Core) (g : GroupId) (f : Group → Group) : Core := { k with groups := k.groups.modify g.val f }

/-- The tower of a core (R19). -/
def towerOf (c : CoreId) : TowerId := ⟨c.val / 64, by omega⟩

/-! ## Core store (R96) -/

/-- Bytes of core store per core. -/
def coreStoreSize : Nat := 0x400000

/-- One byte of a core's store: a free value where the contents are undefined. -/
def State.csByte (s : State) (c : CoreId) (a : Nat) : Byte :=
  match (s.core c).undef.find? (fun r => decide (r.1 ≤ a) && decide (a < r.1 + r.2.1)) with
  | some r => Config.undefByte r.2.2 a
  | none => memRead zeroByte s.coreStore (c.val * coreStoreSize + a)

/-- n bytes of a core's store from an address. -/
def State.csRead (s : State) (c : CoreId) (a n : Nat) : List Byte := (List.range n).map (fun i => s.csByte c (a + i))

/-- Ranges less the range [a, a + n). -/
def cutRanges (a n : Nat) (l : List (Nat × Nat × Nat)) : List (Nat × Nat × Nat) :=
  l.flatMap (fun r =>
    let e := r.1 + r.2.1
    (if r.1 < a then [(r.1, (if e ≤ a then e else a) - r.1, r.2.2)] else []) ++
    (if a + n < e then [((if r.1 < a + n then a + n else r.1), e - (if r.1 < a + n then a + n else r.1), r.2.2)] else []))

/-- The state with bytes of a core's store written. -/
def State.csWrite (s : State) (c : CoreId) (a : Nat) (bs : List Byte) : State :=
  let s := { s with coreStore := memWriteList zeroByte s.coreStore (c.val * coreStoreSize + a) bs }
  match (s.core c).undef with
  | [] => s
  | l => s.modCore c (fun k => { k with undef := cutRanges a bs.length l })

/-- The state with a range of a core's store left undefined: its bytes are free values with a fresh number. -/
def State.csUndef (s : State) (c : CoreId) (a n : Nat) : State :=
  { s.modCore c (fun k => { k with undef := (a, n, s.free) :: cutRanges a n k.undef }) with free := s.free + 1 }
/-- A little-endian 64-bit word of core store. -/
def State.csWord (s : State) (c : CoreId) (a : Nat) : W64 := BitVec.ofNat 64 (leNat (s.csRead c a 8))

/-- Drops the bytes of a core's store below 0x003F_B800 outside the ranges given: they read 0 (R132). -/
def clearBytes (c : CoreId) (keep : List (Nat × Nat)) (m : Memory) : Memory :=
  m.filter (fun cell =>
    !(decide (c.val * coreStoreSize ≤ cell.1) && decide (cell.1 < c.val * coreStoreSize + 0x3FB800))
    || keep.any (fun r => decide (c.val * coreStoreSize + r.1 ≤ cell.1) && decide (cell.1 < c.val * coreStoreSize + r.1 + r.2)))

/-- Ranges restricted to what lies at or above a bound or within the ranges kept. -/
def keepRanges (keep : List (Nat × Nat)) (l : List (Nat × Nat × Nat)) : List (Nat × Nat × Nat) :=
  l.flatMap (fun r => ((0x3FB800, 0x4800) :: keep).flatMap (fun w =>
    let lo := Nat.max r.1 w.1
    let hi := Nat.min (r.1 + r.2.1) (w.1 + w.2)
    if lo < hi then [(lo, hi - lo, r.2.2)] else []))

/-- Clears a core's store below 0x003F_B800 outside the ranges given (R132). -/
def State.csClear (s : State) (c : CoreId) (keep : List (Nat × Nat)) : State :=
  { s.modCore c (fun k => { k with undef := keepRanges keep k.undef }) with coreStore := clearBytes c keep s.coreStore }

/-! ## Slice memory (R156) -/

/-- The index of a block in the package. -/
def blkIndex (c : CoreId) (a : Coord) : Nat :=
  ((((c.val * 4 + a.ch.val) * 2 + a.half.val) * 16 + a.bank.val) * 4224 + a.row.val) * 64 + a.blk.val

/-- The stored data of a block. -/
def State.blkData (s : State) (c : CoreId) (a : Coord) : BlockData :=
  BitVec.ofNat 256 (leNat (memReadList dramDefault s.dram (blkIndex c a * 36) 32))
/-- The stored check word of a block. -/
def State.blkCheck (s : State) (c : CoreId) (a : Coord) : W32 :=
  BitVec.ofNat 32 (leNat (memReadList dramDefault s.dram (blkIndex c a * 36 + 32) 4))
/-- The state with a block's data and check word stored. -/
def State.setBlk (s : State) (c : CoreId) (a : Coord) (d : BlockData) (k : W32) : State :=
  { s with dram := memWriteList dramDefault s.dram (blkIndex c a * 36) (natLe 32 d.toNat ++ natLe 4 k.toNat) }

/-- The DRAM layer of a block (R21): channel c spans layers 2c and 2c + 1. -/
def layerOf (a : Coord) : LayerId := ⟨a.ch.val * 2 + a.half.val, by omega⟩

/-- Zeroes a slice's blocks: the erased state of R472. -/
def eraseSlice (c : CoreId) (m : Memory) : Memory :=
  m.filter (fun cell => !(decide (c.val * 4 * 2 * 16 * 4224 * 64 * 36 ≤ cell.1)
    && decide (cell.1 < (c.val + 1) * 4 * 2 * 16 * 4224 * 64 * 36)))

/-! ## Semaphores (R120) -/

/-- A semaphore: tower × 4096 + index. -/
def State.sem (s : State) (n : Nat) : W32 := (smGet s.sems n).getD 0
/-- The state with a semaphore set. -/
def State.setSem (s : State) (n : Nat) (v : W32) : State := { s with sems := smPut 0 s.sems n v }

/-! ## Island time (R307) -/

/-- Cycles of a core's island: 1.3 GHz × q / 16 on the loop clock (R413); open on the internal oscillator (R412). -/
def coreTime (s : State) (c : CoreId) : Nat :=
  let k := s.core c
  if k.onLoop then k.tickBase + (s.now - k.tickSince) * 13 * k.q / 160 else Config.islandCycles 0 c.val s.now

/-- The counter of a source's island. -/
def islandTime (s : State) (src : Source) : Nat :=
  if h : src.kind.val = 0 ∧ src.index < 512 then coreTime s ⟨src.index, h.2⟩
  else Config.islandCycles src.kind.val src.index s.now

/-! ## Sources and locations (Tables 17.1, 17.3) -/

def srcCore (c : CoreId) : Source := { kind := 0, index := c.val }
def srcSlice (c : CoreId) : Source := { kind := 1, index := c.val }
def srcUnit (c : CoreId) : Source := { kind := 2, index := c.val }
def srcBase (t : TowerId) : Source := { kind := 3, index := t.val }
def srcIo (d : Nat) : Source := { kind := 4, index := 8 + d }
def srcProc (p : Nat) : Source := { kind := 5, index := p }
/-- The MP. -/
def srcMp : Source := srcProc 0
/-- The SP. -/
def srcSp : Source := srcProc 1
/-- A tower scheduler: processor 2 + t (Table 14.1). -/
def srcTs (t : TowerId) : Source := srcProc (2 + t.val)
/-- A network processor: processor 10 + n (Table 14.1). -/
def srcNp (n : Nat) : Source := srcProc (10 + n)

/-- A location word: its kind and its fields. -/
def loc (kind fields : Nat) : W64 := BitVec.ofNat 64 (kind * 2 ^ 60 + fields)
def locBlock (c : CoreId) (a : Coord) : W64 :=
  loc 1 (c.val * 2 ^ 48 + a.ch.val * 2 ^ 46 + (layerOf a).val * 2 ^ 43 + a.bank.val * 2 ^ 39 + a.row.val * 2 ^ 26 + a.blk.val * 2 ^ 20)
/-- A channel of a slice, as the block word with its other fields 0. -/
def locChan (c : CoreId) (ch : ChanId) : W64 := loc 1 (c.val * 2 ^ 48 + ch.val * 2 ^ 46)
/-- A layer of a slice. -/
def locLayer (c : CoreId) (l : LayerId) : W64 := loc 1 (c.val * 2 ^ 48 + l.val / 2 * 2 ^ 46 + l.val * 2 ^ 43)
def locUnit (c : CoreId) (u : UnitId) : W64 := loc 2 (c.val * 2 ^ 48 + u.val * 2 ^ 42)
def locArray (c : CoreId) (g : GroupId) (a : Nat) : W64 := loc 3 (c.val * 2 ^ 48 + g.val * 2 ^ 45 + a * 2 ^ 41)
def locLink (l : LinkId) (lane : Nat) (dir : Bool) : W64 := loc 4 (l.val * 2 ^ 52 + lane * 2 ^ 45 + (if dir then 2 ^ 44 else 0))
def locDie (d : Nat) : W64 := loc 5 (d * 2 ^ 52)
def locPort (kind p : Nat) : W64 := loc 6 (kind * 2 ^ 54 + p * 2 ^ 49)
def locRegion (r : W32) : W64 := loc 7 r.toNat
def locProc (p : Nat) : W64 := loc 8 (p * 2 ^ 52)
def locSensor (n : Nat) : W64 := loc 9 n
def locRemote (view off : Nat) : W64 := loc 10 (view * 2 ^ 56 + off)
def locSeq (ctx : CtxId) (q : W32) : W64 := loc 11 (ctx.val * 2 ^ 48 + q.toNat)

/-- A location widened to its slice, tower, link or IO die (R452). -/
def widen (l : W64) : W64 :=
  let k := bits l 60 4
  if k = 1 ∨ k = 2 ∨ k = 3 then loc 1 (bits l 48 9 * 2 ^ 48) else l

/-- Whether a widened resource lies within a span's: the same, or a slice of the span's tower. -/
def within (r span : W64) : Bool :=
  r == span || (bits span 60 4 == 5 && bits r 60 4 == 1 && bits r 48 9 / 64 == bits span 52 4)

/-! ## Log records (R445-R449) -/

/-- An owner carried by a record. -/
abbrev Owner := Option (CtxId × PartId)

/-- The buffer of a source. -/
def Err.srcBuf (e : Err) (src : Source) : SrcBuf :=
  (e.sources.find? (fun b => b.src == src)).getD { src := src, buf := [], seq := 0, dropped := 0 }

/-- The error state with a source's buffer replaced. -/
def Err.setSrcBuf (e : Err) (b : SrcBuf) : Err :=
  if e.sources.any (fun x => x.src == b.src) then
    { e with sources := updWhere (fun x => x.src == b.src) (fun _ => b) e.sources }
  else { e with sources := e.sources ++ [b] }

/-- The open span that a resource lies in, the newest first. -/
def Err.spanOf (e : Err) (l : W64) : Option Span := e.spans.reverse.find? (fun p => l != 0 && within (widen l) p.resource)
/-- A record as its source emits it: nested when its resource lies within an open span (R452). -/
def mkRec (s : State) (ev : Ev) (src : Source) (l : W64) (status : BitVec 16) (ctx : Owner) (detail : List W64) : LogRec where
  code := ev.code
  severity := ev.severity
  nested := (s.err.spanOf l).isSome
  preempts := false
  src := src
  ctx := ctx
  time := islandTime s src
  seq := (s.err.srcBuf src).seq
  index := 0
  parent := 0xFFFFFFFF
  status := status
  repeats := 0
  location := l
  detail := detail.take 11
  under := (s.err.spanOf l).map (fun p => (p.src, p.seq))

/-- Emits a record into its source's buffer of 64 (R449): a full buffer drops it, and its sequence number is a gap. -/
def State.emit (s : State) (r : LogRec) : State :=
  let b := s.err.srcBuf r.src
  let b := { b with seq := b.seq + 1 }
  let b := if b.buf.length < 64 then { b with buf := b.buf ++ [r] } else { b with dropped := b.dropped + 1 }
  { s with err := s.err.setSrcBuf b }

/-- Logs an event. -/
def State.log (s : State) (ev : Ev) (src : Source) (l : W64 := 0) (status : BitVec 16 := 0) (ctx : Owner := none)
    (detail : List W64 := []) : State :=
  s.emit (mkRec s ev src l status ctx detail)

/-- Logs the record that starts a recovery and opens its handling span (R452). -/
def State.logOpen (s : State) (ev : Ev) (src : Source) (l : W64) (status : BitVec 16 := 0) (ctx : Owner := none)
    (detail : List W64 := []) : State :=
  let r := mkRec s ev src l status ctx detail
  let r := { r with preempts := match s.err.spanOf l with | some p => p.halted && decide (p.severity < ev.severity) | none => false }
  let s := s.emit r
  let sp : Span := { resource := widen l, code := ev.code, severity := ev.severity, src := src, seq := r.seq, index := none, queue := [],
                     halted := false }
  { s with err := { s.err with spans := s.err.spans ++ [sp] } }

/-- Closes the span that a record of an event opened in a resource; its queued recoveries become ready (R452), and a span it
halted resumes. -/
def State.closeSpan (s : State) (l : W64) (ev : Ev) : State :=
  match s.err.spans.find? (fun p => within (widen l) p.resource && p.code == ev.code) with
  | none => s
  | some p =>
    let resume (q : Span) : Span := { q with halted := false }
    let rest := updWhere (fun (q : Span) => within (widen l) q.resource) resume (s.err.spans.erase p)
    { s with err := { s.err with spans := rest, ready := s.err.ready ++ p.queue } }

/-- Abandons the halted spans of a resource (Table 17.6): their work is subsumed by the recovery that halted them. -/
def State.dropHalted (s : State) (l : W64) : State :=
  let gone := s.err.spans.filter (fun (q : Span) => q.halted && within (widen l) q.resource)
  { s with err := { s.err with
      spans := s.err.spans.filter (fun (q : Span) => !(q.halted && within (widen l) q.resource)),
      ready := s.err.ready ++ gone.flatMap (fun (q : Span) => q.queue) } }

/-- What Table 17.6 gives a recovery that starts in a resource: run now, or queue behind the open span. -/
inductive RecoveryTurn where
  | run
  | preempt
  | queue
  deriving DecidableEq, Repr

/-- The turn of a recovery of a severity in a resource. -/
def recoveryTurn (e : Err) (l : W64) (severity : Nat) : RecoveryTurn :=
  match e.spanOf l with
  | none => .run
  | some p => if severity ≤ p.severity then .queue else .preempt

/-- Queues a recovery behind the open span of its resource. -/
def Err.queueRecovery (e : Err) (l : W64) (r : Recovery) : Err :=
  match e.spanOf l with
  | none => e
  | some p => { e with spans := updWhere (· == p) (fun q => { q with queue := q.queue ++ [r] }) e.spans }

/-- Halts the open span of a resource (Table 17.6). -/
def Err.haltSpan (e : Err) (l : W64) : Err :=
  match e.spanOf l with
  | none => e
  | some p => { e with spans := updWhere (· == p) (fun q => { q with halted := true }) e.spans }

/-! ## Host memory and interrupts (R323, R338) -/

/-- A function's registers. -/
def State.fn (s : State) (f : FnId) : Fn := s.fns.getD f.val (Fn.reset false)
/-- The state with a function changed. -/
def State.modFn (s : State) (f : FnId) (g : Fn → Fn) : State := { s with fns := s.fns.modify f.val g }

/-- Kegor writes words to host memory, little-endian, at a host address. -/
def State.hostPut (s : State) (addr : Nat) (ws : List W64) : State :=
  { s with hostMem := memWriteList zeroByte s.hostMem addr (ws.flatMap (fun w => natLe 8 w.toNat)) }

/-- Signals a vector (R323): a masked vector sets its pending bit, and the message goes when it is unmasked. -/
def State.signal (s : State) (f : FnId) (v : Nat) : State :=
  if (s.fn f).masked.getLsbD v then s.modFn f (fun k => { k with pba := k.pba ||| BitVec.ofNat 64 (2 ^ v) })
  else { s with msix := s.msix ++ [(f.val, v)] }

/-! ## Fences (R455) -/

/-- Whether a resource is fenced, by the kinds of ERR_FENCE_CLEAR (Table 17.11). -/
def State.isFenced (s : State) (kind index sub : Nat) : Bool :=
  s.err.fences.contains { kind := kind, index := index, sub := sub }
/-- Records a fence. -/
def State.addFence (s : State) (kind index sub : Nat) : State :=
  let f : FenceId := { kind := kind, index := index, sub := sub }
  if s.err.fences.contains f then s else { s with err := { s.err with fences := s.err.fences ++ [f] } }

/-! ## Free values -/

/-- The state after n free values were drawn; the first has number `s.free`. -/
def State.drew (s : State) (n : Nat) : State := { s with free := s.free + n }

/-- A number that Kegor chooses: the first from a free value on that is not in use and not 0xFFFF_FFFF. -/
def freshId (draw : Nat) (used : List W32) : W32 :=
  (((List.range (used.length + 2)).map (fun i => BitVec.ofNat 32 (Config.choice draw + i))).find?
    (fun n => !(used.contains n) && n != 0xFFFFFFFF)).getD 0

/-- Saturating 32-bit addition. -/
def satAdd (x : W32) (n : Nat) : W32 := if x.toNat + n < 2 ^ 32 then x + BitVec.ofNat 32 n else 0xFFFFFFFF

/-! ## Contexts -/

/-- A context by number. -/
def State.ctx? (s : State) (c : CtxId) : Option Ctx := s.ctxs.find? (fun x => x.num == c)
/-- The state with a context changed. -/
def State.modCtx (s : State) (c : CtxId) (f : Ctx → Ctx) : State :=
  { s with ctxs := updWhere (fun x => x.num == c) f s.ctxs }
/-- A partition. -/
def State.part (s : State) (p : PartId) : Part := s.parts.getD p.val { cores := [], semFirst := 0, semCount := 0 }

end Sys2Proof.Machine
end

