-- ==== Sys2Proof/Machine/Operands.lean ====
section
/-! DEFINITION. Operand forms of core instructions: registers, buffers, ranges, readiness and marks (R95-R103). -/

namespace Sys2Proof.Machine

/-! ## Scalar registers (R95) -/

/-- A scalar register: s0 reads as 0. -/
def Core.reg (k : Core) (r : BitVec 5) : W64 := if r = 0 then 0 else k.regs.getD r.toNat 0
/-- A scalar register written: a write to s0 is discarded. -/
def Core.setReg (k : Core) (r : BitVec 5) (v : W64) : Core := if r = 0 then k else { k with regs := k.regs.set r.toNat v }

/-! ## Buffers (R98-R101) -/

/-- The argument block of the running work item: buffer 0, read-only, always COMPLETE (R96, R98). -/
def argBuffer (k : Core) : Buffer where
  num := 0
  base := 0x3FB800 + k.slot * 0x400
  size := match k.item with | some i => i.argLen.toNat | none => 0
  readOnly := true
  st := .complete
  written := 0
  set := 0

/-- The pass-record area that buffer 255 names in LDS (R98). -/
def passRecords : Buffer := { num := 255, base := 0x3FE000, size := 0x2000, readOnly := true, st := .complete, written := 0, set := 0 }

/-- The buffer of a number; none when it is not bound. -/
def Core.buffer (k : Core) (n : Nat) : Option Buffer :=
  if n = 0 then some (argBuffer k) else if n = 255 then none else k.bufs.find? (fun b => b.num == n)

/-- A core with a buffer's state set. -/
def Core.setBuf (k : Core) (n : Nat) (st : BufState) : Core :=
  { k with bufs := updWhere (fun b => b.num == n) (fun b => { b with st := st }) k.bufs }

/-- The range an instruction names: buffer, absolute address, length. Bounds are judged when it issues. -/
def mkRng (b : Buffer) (off len : Nat) : Rng := { buf := b.num, addr := b.base + off, len := len }

/-- Whether a range lies within its buffer. -/
def inBounds (b : Buffer) (r : Rng) : Bool := decide (b.base ≤ r.addr) && decide (r.addr + r.len ≤ b.base + b.size)

/-- Whether two byte ranges share a byte. -/
def overlaps (a n b m : Nat) : Bool := decide (a < b + m) && decide (b < a + n) && decide (0 < n) && decide (0 < m)

/-- Whether two ranges share a byte. -/
def Rng.meets (a b : Rng) : Bool := overlaps a.addr a.len b.addr b.len

/-! ## Outstanding instructions (R94, R99) -/

/-- The number of a queue in FENCE and CNTADD masks (Table 4.14) and stall counters. -/
def queueIdx : Queue → Nat
  | .g n => n.val
  | .vec => 8
  | .mov => 9
  | .nb => 10
  | .syn => 11
  | .col => 12

/-- Every instruction dispatched to a queue that has not completed. -/
def Core.outstanding (k : Core) : List Entry := k.inflight ++ k.queues ++ k.stalled.toList

/-- The entries waiting in a queue, oldest first. -/
def Core.queued (k : Core) (q : Queue) : List Entry := k.queues.filter (fun e => e.queue == q)

/-- Whether an instruction earlier than `ord` that is outstanding writes the buffer. -/
def Core.writerPending (k : Core) (ord buf : Nat) : Bool :=
  k.outstanding.any (fun e => decide (e.ord < ord) && e.writes.contains buf)

/-- Whether an instruction earlier than `ord` that is outstanding reads the buffer. -/
def Core.readerPending (k : Core) (ord buf : Nat) : Bool :=
  k.outstanding.any (fun e => decide (e.ord < ord) && e.reads.contains buf)

/-- The readiness of R99 for an instruction. -/
def Core.ready (k : Core) (e : Entry) : Bool :=
  e.reads.all (fun b => !(k.writerPending e.ord b)) && e.writes.all (fun b => !(k.readerPending e.ord b))

/-- Whether an earlier instruction of the masked queues is outstanding (R121). -/
def Core.busyIn (k : Core) (ord : Nat) (mask : BitVec 13) : Bool :=
  k.outstanding.any (fun e => decide (e.ord < ord) && mask.getLsbD (queueIdx e.queue))

/-- Whether nothing dispatched is outstanding. -/
def Core.drained (k : Core) : Bool := k.inflight.isEmpty && k.queues.isEmpty && k.stalled.isNone

/-! ## Marks (R100, R101) -/

/-- A write of a buffer that completes: poisoned input poisons it; an EMPTY buffer becomes COMPLETE; a POISONED one is
cleared only by a write of its whole range by a move, vector or pass instruction. A later NBINV or BUFSTATE stands. -/
def Core.markWritten (k : Core) (ord : Nat) (r : Rng) (poisonIn clears : Bool) : Core :=
  match k.bufs.find? (fun b => b.num == r.buf) with
  | none => k
  | some b =>
    let k := { k with bufs := updWhere (fun b => b.num == r.buf) (fun b => { b with written := Nat.max b.written (ord + 1) }) k.bufs }
    if ord < b.set then k
    else if poisonIn then k.setBuf r.buf .poisoned
    else match b.st with
      | .empty => k.setBuf r.buf .complete
      | .complete => k
      | .poisoned => if clears && r.addr == b.base && r.len == b.size then k.setBuf r.buf .complete else k

/-- Whether any of the buffers is marked POISONED. -/
def Core.anyPoisoned (k : Core) (bufs : List Nat) : Bool :=
  bufs.any (fun n => match k.buffer n with | some b => b.st == .poisoned | none => false)

/-! ## Dispatch (R93, R94, R128) -/

/-- Whether the core dispatches: a work item runs, nothing waits, the island runs. -/
def Core.dispatching (k : Core) : Bool :=
  k.item.isSome && k.wait == .none && k.stalled.isNone && !k.paused && k.mode == .run

/-- The core after an instruction that fails: it takes no effect, dispatch stops, and queued instructions that have not
issued are discarded (R128). The first failure stands. -/
def Core.fault (k : Core) (st : BitVec 16) (pc : Nat) : Core :=
  match k.wait with
  | .faulted _ _ => k
  | _ => { k with wait := .faulted st pc, queues := [], stalled := none }

/-- The core after an instruction that the sequencer finished at dispatch. -/
def Core.advance (k : Core) : Core := { k with pc := k.pc + 1 }

/-- The capacity of each issue queue (R94). -/
def queueDepth : Nat := 8

/-- An instruction goes to its queue; a full queue stalls dispatch (R94). -/
def Core.enqueue (k : Core) (q : Queue) (reads writes : List Nat) (op : Op) : Core :=
  let e : Entry := { queue := q, pc := k.pc, ord := k.ord, reads := reads, writes := writes, op := op }
  let k := { k with pc := k.pc + 1, ord := k.ord + 1 }
  if (k.queued q).length < queueDepth then { k with queues := k.queues ++ [e] } else { k with stalled := some e }

/-- Dispatch of an instruction that reads and writes buffers: an unbound buffer, or an EMPTY buffer to be read with no
writer of it pending, fails at dispatch (R100, Table 4.15). -/
def Core.dispatchOp (k : Core) (q : Queue) (reads writes : List Nat) (op : Op) : Core :=
  if (reads ++ writes).any (fun n => (k.buffer n).isNone) then k.fault stBufUnbound k.pc
  else if reads.any (fun n => (match k.buffer n with | some b => b.st == .empty | none => false)
      && !(k.writerPending k.ord n)) then k.fault stBufEmpty k.pc
  else k.enqueue q reads writes op

/-- A stalled instruction enters its queue once there is room. -/
def Core.unstall (k : Core) : Core :=
  match k.stalled with
  | some e => if (k.queued e.queue).length < queueDepth then { k with queues := k.queues ++ [e], stalled := none } else k
  | none => k

/-! ## Completion -/

/-- The core without an instruction that completed. -/
def Core.retire (k : Core) (ord : Nat) : Core := { k with inflight := k.inflight.filter (fun e => e.ord != ord) }

/-- Byte ranges an operation writes in core store. -/
def opWrites : Op → List (Nat × Nat)
  | .pass p _ =>
    match p.drain with
    | some d => if p.shape = 3 then [] else (List.range p.m).map (fun i => (d.out.addr + 4 * (i * d.stride), 4 * p.n))
    | none => []
  | .vec p => [(p.dst.addr, p.dst.len)]
  | .move p =>
    match p.op with
    | .load => [(p.store.addr, p.store.len)]
    | .copy => [(p.store.addr, p.store.len)]
    | .store => []
  | .nblaunch p => [(p.st.addr, p.st.len)]
  | .coll d => [(d.addr, d.len)]
  | _ => []

/-- The clashes an issuing instruction makes: writes of one byte by instructions of two queues of which neither waits for
the other (R99). -/
def Core.newClashes (k : Core) (e : Entry) : List (Nat × Nat × Nat × Nat) :=
  let others := (k.inflight ++ k.queues.filter (fun x => decide (x.ord < e.ord))).filter (fun x => x.queue != e.queue)
  others.flatMap (fun x => (opWrites e.op).flatMap (fun w => (opWrites x.op).flatMap (fun v =>
    if overlaps w.1 w.2 v.1 v.2 then
      let lo := Nat.max w.1 v.1
      [(x.ord, e.ord, lo, Nat.min (w.1 + w.2) (v.1 + v.2) - lo)]
    else [])))

/-- The clashes an STS makes with outstanding writes of queues; the bytes become undefined when those end (R99). -/
def Core.storeClashes (k : Core) (a n : Nat) : List (Nat × Nat × Nat × Nat) :=
  k.outstanding.flatMap (fun x => (opWrites x.op).flatMap (fun v =>
    if overlaps a n v.1 v.2 then
      let lo := Nat.max a v.1
      [(x.ord, x.ord, lo, Nat.min (a + n) (v.1 + v.2) - lo)]
    else []))

/-- The head of a queue leaves it and is in flight. -/
def Core.issue (k : Core) (e : Entry) : Core :=
  { k with queues := k.queues.erase e, clash := k.clash ++ k.newClashes e, inflight := k.inflight ++ [e] }

/-- Leaves the bytes of ended clashes undefined: those of `ord` whose other instruction is no longer outstanding (R99). -/
def endClashes (s : State) (c : CoreId) (ord : Nat) : State :=
  let k := s.core c
  let above := k.clash.filter (fun x =>
    (x.1 == ord || x.2.1 == ord)
    && !(k.outstanding.any (fun e => e.ord == (if x.1 == ord then x.2.1 else x.1))))
  let s := s.modCore c (fun k => { k with clash := k.clash.filter (fun x => !(above.contains x)) })
  above.foldl (fun s x => s.csUndef c x.2.2.1 x.2.2.2) s

/-- An instruction completes: it leaves the core, its buffer is marked, ended clashes leave undefined bytes. -/
def complete (s : State) (c : CoreId) (e : Entry) (written : List Rng) (poisonIn clears : Bool) : State :=
  let s := s.modCore c (fun k => written.foldl (fun k r => k.markWritten e.ord r poisonIn clears) (k.retire e.ord))
  endClashes s c e.ord

/-! ## Scalar accesses of buffers (R105, R106) -/

/-- The bytes of an LDS or STS. -/
def wordBytes (wide : Bool) : Nat := if wide then 8 else 4

/-- A word loaded: a 4 B word is sign-extended (Table 4.4). -/
def loadWord (s : State) (c : CoreId) (r : Rng) (wide : Bool) : W64 :=
  let v := leNat (s.csRead c r.addr (wordBytes wide))
  if wide then BitVec.ofNat 64 v else (BitVec.ofNat 32 v).signExtend 64

/-! ## Ending a work item (R127-R129, R411) -/

/-- The status END reports (R129), when no instruction failed. -/
def endStatus (k : Core) (v : W64) : BitVec 16 :=
  if v ≠ 0 then stProgram v
  else if k.passPoison then stPassPoison
  else if k.poisonSeen || k.nbPoison then stDataPoison
  else stOk

/-- The outcome of the running work item (R399, Table 12.10a). -/
def outcome (k : Core) (c : CoreId) (i : WorkItem) (st : BitVec 16) (index : Nat) : WorkOutcome where
  item := i
  core := c
  status := st
  index := BitVec.ofNat 32 index
  poison := k.passPoison || k.poisonSeen || k.nbPoison
  nan := (k.arith.map (fun a => a.nan.toNat)).sum
  inf := (k.arith.map (fun a => a.inf.toNat)).sum
  subn := (k.arith.map (fun a => a.subn.toNat)).sum
  nancode := (k.arith.map (fun a => a.nancode.toNat)).sum
  sat := k.satMov.toNat

/-- Whether the core may switch to the loop clock (R413): loop selected, locked, and the voltage allows it. -/
def Core.mayUseLoop (k : Core) : Bool := k.clkLoop && k.loopLocked

/-- The running work item ends: its outcome waits for the tower scheduler, the loop clock is selected, and a core with an
empty local queue goes idle (R129, R411, R413). -/
def endItem (s : State) (c : CoreId) (st : BitVec 16) (index : Nat) : State :=
  let k := s.core c
  match k.item with
  | none => s
  | some i =>
    let s := { s with sched := { s.sched with outcomes := s.sched.outcomes ++ [outcome k c i st index] } }
    s.setCore c { k with
      item := none, wait := .none, lastCtx := some i.context, queues := [], stalled := none, inflight := [], clash := []
      clkLoop := true
      mode := if k.localQ.isEmpty && k.saved.isNone then .idle else .run
      modeSince := s.now }

/-! ## The sequencer record and core retention (R133, R405, R409) -/

/-- Writes the sequencer record of Table 4.18. Group settings, queue entries and cursors have no layout in the spec: those
words hold free values (log entry 17). -/
def putSeqRecord (s : State) (c : CoreId) : State :=
  let k := s.core c
  let wi := match k.item with | some i => i.workItem.toNat | none => 0
  let ws : List Nat := [wi * 2 ^ 32 + 1, k.pc] ++ (List.range 32).map (fun r => (k.reg (BitVec.ofNat 5 r)).toNat)
    ++ [k.flags.toNat]
    ++ (List.range 8).map (fun i => (k.counters.getD (2 * i + 1) 0).toNat * 2 ^ 32 + (k.counters.getD (2 * i) 0).toNat)
  let s := s.csWrite c 0x3FC000 (ws.flatMap (fun w => natLe 8 w))
  let s := s.csUndef c (0x3FC000 + 43 * 8) ((741 - 43) * 8)
  s.csWrite c (0x3FC000 + 741 * 8) (List.replicate ((1024 - 741) * 8) 0)

/-- A group whose tiles are lost. -/
def Group.loseTiles (g : Group) : Group :=
  { g with active := List.replicate 16 none, shadow := List.replicate 16 none, tilesLost := true }

/-- A core's island enters retention (Table 15.1): banks 0-23 and the arrays' tiles are lost, the loop stops. -/
def enterRetention (s : State) (c : CoreId) : State :=
  let s := s.csUndef c 0 0x300000
  s.modCore c (fun k => { k with
    mode := .retention, modeSince := s.now, loopLocked := false,
    groups := k.groups.map Group.loseTiles })

/-- The mode a WAIT enters (R408, R410): a core that holds a pre-empted work item enters idle instead of retention. -/
def waitMode (k : Core) : CoreMode :=
  if k.coreMode = 2 then (if k.saved.isSome then .idle else .retention)
  else if k.coreMode = 1 then .idle else .wait

/-- What dispatch waits for is looked at again after an event on the core: a stalled instruction enters its queue; LDS,
STS, FENCE, FLAGWAIT, CNTWAIT, WAIT's drain and END go on once their condition holds. -/
def settle (c : CoreId) (s : State) : State :=
  let s := s.modCore c Core.unstall
  let k := s.core c
  match k.wait with
  | .lds d r wide =>
    if k.writerPending k.ord r.buf then s
    else match (if r.buf = 255 then some passRecords else k.buffer r.buf) with
      | none => s.setCore c (k.fault stBufUnbound k.pc)
      | some b =>
        if b.st == .empty then s.setCore c (k.fault stBufEmpty k.pc)
        else if inBounds b r then
          let v := loadWord s c r wide
          s.setCore c ({ k with wait := .none }.setReg d v).advance
        else s.setCore c (k.fault stBufBounds k.pc)
  | .sts v r wide =>
    if k.readerPending k.ord r.buf then s
    else match k.buffer r.buf with
      | none => s.setCore c (k.fault stBufUnbound k.pc)
      | some b =>
        if b.readOnly then s.setCore c (k.fault stBufReadonly k.pc)
        else if inBounds b r then
          let s := s.csWrite c r.addr (natLe (wordBytes wide) v.toNat)
          s.modCore c (fun k => ({ k with wait := .none, clash := k.clash ++ k.storeClashes r.addr (wordBytes wide)
                                 }.markWritten k.ord r false false).advance)
        else s.setCore c (k.fault stBufBounds k.pc)
  | .fence mask => if k.busyIn k.ord mask then s else s.setCore c { k with wait := .none }.advance
  | .flagwait mask all =>
    if (if all then k.flags &&& mask == mask else k.flags &&& mask != 0) then s.setCore c { k with wait := .none }.advance
    else s
  | .cntwait n v =>
    if (v.sle (k.counters.getD n.val 0)) then s.setCore c { k with wait := .none }.advance else s
  | .drainWait ev a b =>
    if k.drained then
      let s := s.setCore c { k with
        wait := .waiting ev a b, waitSince := s.now, waitTick := coreTime s c, mode := waitMode k, modeSince := s.now }
      if waitMode k = .retention then enterRetention (putSeqRecord s c) c else s
    else s
  | .drainEnd v => if k.drained then endItem s c (endStatus k v) 0xFFFFFFFF else s
  | _ => s

/-- A number as a detail word. -/
def w64 (n : Nat) : W64 := BitVec.ofNat 64 n
/-- An integer as a detail word. -/
def i64 (n : Int) : W64 := BitVec.ofInt 64 n

/-! ## Rate records (R309) -/

/-- Emits the rate record a core owes: the count at the first change, the rate in force, the number of changes. -/
def emitRate (s : State) (c : CoreId) : State :=
  let k := s.core c
  if k.rateChanges = 0 then s
  else
    let s := s.setCore c { k with rateChanges := 0, lastRate := some s.now }
    s.log { code := Config.syncCode 3, severity := 0 } (srcCore c) 0 0 none [w64 k.rateFirst, w64 k.q, w64 k.rateChanges]
/-- Whether a rate record may go: at most one in 10 µs. -/
def rateDue (k : Core) (now : Nat) : Bool := match k.lastRate with | some t => decide (t + 10000 ≤ now) | none => true
/-- A change of a core island's rate: its counter goes on from where it stands, and a record is emitted or held back. -/
def changeRate (s : State) (c : CoreId) (f : Core → Core) : State :=
  let t := coreTime s c
  let k := f (s.core c)
  let first := if k.rateChanges = 0 then t else k.rateFirst
  let s := s.setCore c { k with tickBase := t, tickSince := s.now, rateChanges := k.rateChanges + 1, rateFirst := first }
  if rateDue (s.core c) s.now then emitRate s c else s
/-- Dispatch of one instruction of a core program: nothing happens unless the core dispatches. -/
def dispatch (c : CoreId) (s : State) (f : Core → State → State) : Out :=
  .next (if (s.core c).dispatching then settle c (f (s.core c) s) else s)

end Sys2Proof.Machine
end

