-- ==== Sys2Proof/Machine/Blocks.lean ====
section
/-! DEFINITION. Code blocks (R192-R204), the maps from views to coordinates (R211-R228), regions (R218-R220, R453, R454), and
reads and writes by the slice controller, the eddy among them (R173-R177). -/

namespace Sys2Proof.Machine

/-! ## The code (R192, R193, R197) -/

/-- The number of set bits among the low n bits of a number. -/
def ones (n x : Nat) : Nat := (List.range n).foldl (fun c j => if x.testBit j then c + 1 else c) 0
/-- The lowest set bit among the low n bits. -/
def lowBit (n x : Nat) : Nat := ((List.range n).find? (fun j => x.testBit j)).getD 0
/-- Row i of a block: the 16-bit unit at bytes 2i and 2i + 1. -/
def rowBits (d : BlockData) (i : Nat) : Nat := bits d (16 * i) 16
/-- The row parities r_15 … r_0. -/
def rowParities (d : BlockData) : BitVec 16 :=
  BitVec.ofNat 16 ((List.range 16).foldl (fun acc i => if ones 16 (rowBits d i) % 2 = 1 then acc + 2 ^ i else acc) 0)
/-- The column parities c_15 … c_0. -/
def colParities (d : BlockData) : BitVec 16 :=
  BitVec.ofNat 16 ((List.range 16).foldl (fun acc i => acc ^^^ rowBits d i) 0)
/-- The parity word P(d). -/
def parityWord (d : BlockData) : W32 := colParities d ++ rowParities d
/-- The stored check word of clean data in a full-code block. -/
def checkWord (d : BlockData) : W32 := parityWord d ^^^ 0x5A5AA5A5
/-- The stored check word of a full-code block written poisoned (R198). -/
def poisonWord (d : BlockData) : W32 := parityWord d ^^^ 0xA5A55A5A
/-- The stored check word of an activation block: its poison flag, then its row parities (R197). -/
def actWord (d : BlockData) (poison : Bool) : W32 :=
  (if poison then 0xA5A5#16 else 0x5A5A#16) ++ (rowParities d ^^^ 0xA5A5#16)

/-- The class of a decoded block (Table 7.1). -/
inductive Decoded where
  | clean
  | poisoned
  | dataBit (b : Nat)
  | rowCheck (i : Nat)
  | colCheck (j : Nat)
  | uncorrectable
  deriving DecidableEq, Repr

/-- The syndrome of a full-code block. -/
def syndrome (d : BlockData) (k : W32) : W32 := parityWord d ^^^ k ^^^ 0x5A5AA5A5
/-- Table 7.1. -/
def decodeFull (d : BlockData) (k : W32) : Decoded :=
  let s := (syndrome d k).toNat
  let r := s % 65536
  let c := s / 65536
  if s = 0 then .clean
  else if 28 ≤ ones 32 s then .poisoned
  else if ones 16 r = 1 ∧ ones 16 c = 1 then .dataBit (16 * lowBit 16 r + lowBit 16 c)
  else if ones 16 r = 1 ∧ c = 0 then .rowCheck (lowBit 16 r)
  else if r = 0 ∧ ones 16 c = 1 then .colCheck (lowBit 16 c)
  else .uncorrectable
/-- Data with the bit inverted that the decoder names. -/
def mended (d : BlockData) (x : Decoded) : BlockData :=
  match x with
  | .dataBit b => d ^^^ BitVec.ofNat 256 (2 ^ b)
  | _ => d
/-- The bit, 0-287, that a correction mends (R195): data bits, row check bits, column check bits. -/
def mendedBit (x : Decoded) : Option Nat :=
  match x with
  | .dataBit b => some b
  | .rowCheck i => some (256 + i)
  | .colCheck j => some (272 + j)
  | _ => none
/-- Whether an activation block's flag marks it poisoned (R197). -/
def flagPoisoned (k : W32) : Bool := decide (ones 16 (bits k 16 16 ^^^ 0xA5A5) ≤ 8)
/-- The rows of an activation block that fail their parity. -/
def failingRows (d : BlockData) (k : W32) : Nat := (rowParities d ^^^ BitVec.ofNat 16 (bits k 0 16) ^^^ 0xA5A5#16).toNat

/-! ## Coordinates (R156, R213, R239) -/

/-- A row of a slice as a number. -/
def rowId (a : Coord) : Nat := ((a.ch.val * 2 + a.half.val) * 16 + a.bank.val) * 4224 + a.row.val
/-- A block of a numbered row. -/
def rowCoord (n : Nat) (blk : Fin 64) : Coord where
  ch := Fin.ofNat 4 (n / 4224 / 16 / 2)
  half := Fin.ofNat 2 (n / 4224 / 16)
  bank := Fin.ofNat 16 (n / 4224)
  row := Fin.ofNat 4224 n
  blk := blk
/-- The unit whose bank pair holds a block (R239). -/
def unitOf (a : Coord) : UnitId := Fin.ofNat 64 ((layerOf a).val * 8 + a.bank.val / 2)
/-- The coordinates of a channel offset (R213). -/
def offCoord (ch : ChanId) (o : Nat) : Coord :=
  let x := o / 2048
  { ch := ch, half := Fin.ofNat 2 x, bank := Fin.ofNat 16 ((x / 2 % 16) ^^^ (x / 32 % 16)), row := Fin.ofNat 4224 (x / 32 % 4096),
    blk := Fin.ofNat 64 (o / 32) }
/-- The channel offset of a block in an addressable row: the inverse of R213. -/
def coordOff (a : Coord) : Nat :=
  ((a.row.val * 16 + (a.bank.val ^^^ (a.row.val % 16))) * 2 + a.half.val) * 2048 + a.blk.val * 32

/-! ## Views (R211, R212, R214, R215, R224, R225) -/

/-- S in MiB. -/
def State.sMiB (s : State) : Nat := 16 * s.map.spread16m.toNat
/-- The channel offset of spread set 0. -/
def State.spreadBase (s : State) : Nat := 256 * 2 ^ 20 - s.sMiB * 2 ^ 18
/-- n: spread sets of a channel (R214). -/
def State.setCount (s : State) : Nat := 64 * s.sMiB
/-- n_a: addressable sets of a channel. -/
def State.setsAddr (s : State) : Nat := 7 * s.setCount / 8
/-- The channels of a slice that the map in force uses, ascending. -/
def State.survivors (s : State) (c : CoreId) : List ChanId :=
  [(0 : ChanId), 1, 2, 3].filter (fun ch => !(s.map.out.contains (4 * c.val + ch.val)))
/-- Bytes of a slice's private view (R212, R225). -/
def State.privSize (s : State) (c : CoreId) : Nat :=
  match (s.survivors c).length with
  | 4 => 4 * s.spreadBase
  | 3 => 3 * s.spreadBase
  | _ => 0
/-- The block of a private offset. -/
def State.privCoord (s : State) (c : CoreId) (a : Nat) : Option Coord :=
  if s.privSize c ≤ a then none
  else match s.survivors c with
    | [_, _, _, _] => some (offCoord (Fin.ofNat 4 (a / 1024)) (a / 4096 * 1024 + a % 1024))
    | [x, y, z] => some (offCoord ([x, y, z].getD (a / 1024 % 3) x) (a / 1024 / 3 * 1024 + a % 1024))
    | _ => none
/-- fold6 of R215. -/
def fold6 (v : Nat) : Nat := (v % 64) ^^^ (v / 64 % 64) ^^^ (v / 4096 % 64)
/-- The global channel and the set of a spread line (R215). -/
def spreadHome (l : Nat) : Nat × Nat :=
  let set := l / 2048
  let core := 64 * (l % 8) + ((l / 32 % 64) ^^^ fold6 set)
  (4 * core + l / 8 % 4, set)
/-- The line of a global channel's set: the inverse of R215. -/
def spreadLine (g set : Nat) : Nat :=
  let core := g / 4
  set * 2048 + ((core % 64) ^^^ fold6 set) * 32 + g % 4 * 8 + core / 64
/-- The core of a global channel. -/
def gchCore (g : Nat) : CoreId := Fin.ofNat 512 (g / 4)
/-- The channel of a global channel. -/
def gchChan (g : Nat) : ChanId := Fin.ofNat 4 g
/-- Where a global channel's set lies under the map in force: its donor when it is substituted, itself while the map uses its
channel, nowhere otherwise (R224). -/
def State.setLoc (s : State) (g set : Nat) : Option (Nat × Nat) :=
  match s.map.subsets.find? (fun x => x.chan == g && x.set == set) with
  | some x => some (x.donor, x.dset)
  | none =>
    if s.map.out.contains g || s.map.unmapped.contains (g, set) then none else some (g, set)

/-- What a remote byte lies in. -/
inductive Target where
  | block (c : CoreId) (a : Coord)
  | unmapped
  | far (p : FarPort) (off : Nat)
  deriving DecidableEq, Repr

/-- Bytes of a port's capacity in use. -/
def State.farCap (s : State) (p : FarPort) : Nat := (s.far.getD p.val Far.reset).cap * 2 ^ 28
/-- Whether a port serves accesses (Table 8.8: up, or up at reduced width or rate). -/
def State.farUp (s : State) (p : FarPort) : Bool :=
  let x := (s.far.getD p.val Far.reset).st
  x == 2 || x == 3
/-- The port and device offset of a far offset (R228). -/
def State.farTarget (s : State) (a : Nat) : Option (FarPort × Nat) :=
  let x : FarPort × Nat :=
    if s.mem.farPair then (Fin.ofNat 2 (a / 4096), a / 8192 * 4096 + a % 4096) else (Fin.ofNat 2 (a / 2 ^ 40), a % 2 ^ 40)
  let cap := if s.mem.farPair then Nat.min (s.farCap 0) (s.farCap 1) else s.farCap x.1
  if x.2 < cap ∧ a < 2 ^ 42 then some x else none
/-- Bytes of a view: 0 private, 1 spread, 2 far tier. -/
def State.viewSize (s : State) (c : CoreId) (view : Nat) : Nat :=
  match view with
  | 0 => s.privSize c
  | 1 => 2048 * s.setsAddr * 4096
  | _ => 2 ^ 42
/-- What a byte of a view lies in; none beyond the view. -/
def State.target (s : State) (c : CoreId) (view a : Nat) : Option Target :=
  match view with
  | 0 => (s.privCoord c a).map (fun x => .block c x)
  | 1 =>
    if s.viewSize c 1 ≤ a then none
    else
      let h := spreadHome (a / 4096)
      match s.setLoc h.1 h.2 with
      | some (g, set) => some (.block (gchCore g) (offCoord (gchChan g) (s.spreadBase + set * 4096 + a % 4096)))
      | none => some .unmapped
  | _ => (s.farTarget a).map (fun x => .far x.1 x.2)
/-- View code and offset of a remote address (R211). -/
def remoteParts (w : W64) : Option (Nat × Nat) :=
  let off := bits w 0 60
  match bits w 60 4 with
  | 0 => if off < 2 ^ 30 then some (0, off) else none
  | 1 => if off < 2 ^ 38 then some (1, off) else none
  | 2 => if off < 2 ^ 42 then some (2, off) else none
  | _ => none
/-- The view and offset of a block: its spread line when its row lies in the channel's spread share, else private. -/
def State.blockView (s : State) (c : CoreId) (a : Coord) : Option (Nat × Nat) :=
  if 4096 ≤ a.row.val then none
  else
    let o := coordOff a
    if o < s.spreadBase then
      let ix := (s.survivors c).idxOf a.ch
      match (s.survivors c).length with
      | 4 => some (0, o / 1024 * 4096 + a.ch.val * 1024 + o % 1024)
      | 3 => some (0, (o / 1024 * 3 + ix) * 1024 + o % 1024)
      | _ => none
    else
      let set := (o - s.spreadBase) / 4096
      let g := 4 * c.val + a.ch.val
      let own : Option (Nat × Nat) :=
        match s.map.subsets.find? (fun x => x.donor == g && x.dset == set) with
        | some x => some (x.chan, x.set)
        | none => if set < s.setsAddr then some (g, set) else none
      own.map (fun h => (1, spreadLine h.1 h.2 * 4096 + (o - s.spreadBase) % 4096))

/-! ## Regions (R218-R220) -/

/-- Whether a region holds the bytes [a, a + n) of a view, for a core in private view. -/
def Region.holds (r : Region) (c : CoreId) (view a n : Nat) : Bool :=
  r.view == view && decide (r.base ≤ a) && decide (a + n ≤ r.base + r.lines * 4096)
  && (view != 0 || (decide (r.firstCore ≤ c.val) && decide (c.val ≤ r.lastCore)))
/-- The region that holds a block. -/
def State.regionAt (s : State) (c : CoreId) (a : Coord) : Option Region :=
  match s.blockView c a with
  | some (v, o) => s.regions.find? (fun r => r.holds c v o 32)
  | none => none
/-- The protection type a block is decoded by: full code where no region holds it. -/
def State.ptypeAt (s : State) (c : CoreId) (a : Coord) : PType :=
  match s.regionAt c a with
  | some r => r.ptype
  | none => .state
/-- The status of an access of a partition that R220 refuses. -/
def State.accessFails (s : State) (p : PartId) (c : CoreId) (view a n : Nat) (write : Bool) : Option (BitVec 16) :=
  match s.regions.find? (fun r => r.part == p && r.holds c view a n) with
  | none => some stMoveAddr
  | some r =>
    if r.fenced then some stRegionFenced
    else if write && r.readOnly then some stMoveAddr
    else if n = 0 then none
    else if (s.target c view a).isNone || (s.target c view (a + n - 1)).isNone then some stMoveAddr
    else none
/-- The state with a region changed. -/
def State.modRegion (s : State) (id : W32) (f : Region → Region) : State :=
  { s with regions := updWhere (fun r => r.id == id) f s.regions }

/-! ## Losses that reach an owner (R453, R454) -/

/-- A notice of R454. -/
def lossNotice (status : BitVec 16) (region : W32) (lines : Nat) : Rec where
  seq := 0
  status := status
  type := 0xFF
  poison := false
  held := false
  last := true
  irq := false
  tag := region.setWidth 64
  workItem := BitVec.ofNat 32 lines
  index := 0
  core := 0
/-- A context with a notice added: the seventeenth merges into the sixteenth. -/
def Ctx.addNotice (x : Ctx) (r : Rec) : Ctx :=
  if x.notices.length < 16 then { x with notices := x.notices ++ [r] }
  else { x with notices := x.notices.modify 15 (fun n => { n with workItem := n.workItem + r.workItem }) }
/-- One loss: an ERR_STATE_LOSS record and a notice in the owning context's completion ring. -/
def State.stateLoss (s : State) (r : Region) (status : BitVec 16) (lines : Nat) : State :=
  let s := s.log errStateLoss srcMp (locRegion r.id) status (some (r.ctx, r.part))
  s.modCtx r.ctx (fun x => x.addNotice (lossNotice status r.id lines))
/-- The core and view offset of a line of a region, numbered as in the restore source (R218). -/
def Region.lineAddr (r : Region) (line : Nat) : CoreId × Nat :=
  if r.view = 0 then (Fin.ofNat 512 (r.firstCore + line / Nat.max 1 r.lines), r.base + line % Nat.max 1 r.lines * 4096)
  else (0, r.base + line * 4096)
/-- The handling spans of a region's restore close (R452): those of the slices that hold its lines. -/
def State.closeRestore (s : State) (r : Region) : State :=
  (r.todo ++ r.restored).foldl (fun s line =>
    let a := r.lineAddr line
    match s.target a.1 r.view a.2 with
    | some (.block t _) => s.closeSpan (loc 1 (t.val * 2 ^ 48)) memUe
    | _ => s) s
/-- Fences a region: ERR_REGION_FENCED and the owner's notice (R453). -/
def State.fenceRegion (s : State) (r : Region) : State :=
  let s := (s.closeRestore r).modRegion r.id (fun x => { x with fenced := true, recovering := false, todo := [], restored := [] })
  (s.log errRegionFenced srcMp (locRegion r.id) stRegionFenced (some (r.ctx, r.part))).stateLoss r stRegionFenced r.lines
/-- Whether a context's function is LOST. -/
def State.ownerLost (s : State) (c : CtxId) : Bool :=
  match s.ctx? c with
  | some x => (s.fn x.fn).st == .lost
  | none => true
/-- The line of a byte of a view within its region, numbered as in the restore source (R218). -/
def Region.lineOf (r : Region) (c : CoreId) (off : Nat) : Nat :=
  (off - r.base) / 4096 + (if r.view = 0 then (c.val - r.firstCore) * r.lines else 0)
/-- An uncorrectable block of a region, by its line: recovery by type (R200), or the fence of a region under recovery (R453). -/
def State.regionLoses (s : State) (r : Region) (line : Nat) : State :=
  if r.fenced ∨ r.ptype = .activation then s
  else if r.recovering then s.fenceRegion r
  else if r.ptype = .weight ∧ r.restore ≠ .none then
    s.modRegion r.id (fun x => { x with recovering := true, todo := [line], restored := [] })
  else (s.modRegion r.id (fun x => { x with recovering := !(s.ownerLost r.ctx) })).stateLoss r stStateLost 1

/-! ## Repairs (R183-R185) -/

/-- Rows of a repair unit. -/
def unitRows : RepairUnit → Nat
  | .row _ _ _ _ => 1
  | .subArray _ _ _ _ => 512
  | .bank _ _ _ => 4096
/-- The row of a repair unit by its place in the unit. -/
def unitRow (u : RepairUnit) (i : Nat) : Nat :=
  match u with
  | .row ch h b r => rowId { ch := ch, half := h, bank := b, row := Fin.ofNat 4224 r.val, blk := 0 }
  | .subArray ch h b k => rowId { ch := ch, half := h, bank := b, row := Fin.ofNat 4224 (512 * k.val + i), blk := 0 }
  | .bank ch h b => rowId { ch := ch, half := h, bank := b, row := Fin.ofNat 4224 i, blk := 0 }
/-- The place of a row in a repair unit. -/
def unitPlace (u : RepairUnit) (n : Nat) : Option Nat :=
  let i := n - unitRow u 0
  if unitRow u 0 ≤ n ∧ i < unitRows u then some i else none
/-- The row that holds a row's data, by the entries of the repair map, newest last (R185). -/
def repairedRow : List RepairEntry → Nat → Nat
  | [], n => n
  | e :: t, n =>
    let m := repairedRow t n
    if m ≠ n then m
    else match unitPlace e.unit n with
      | some i => if i < e.moved then e.targets.getD i n else n
      | none => n
/-- Where a block's data lies. -/
def Slice.place (k : Slice) (a : Coord) : Coord :=
  match k.repairs with
  | [] => a
  | l => if 4096 ≤ a.row.val then a else rowCoord (repairedRow l (rowId a)) a.blk

/-! ## Repair marks (R204) -/

/-- 24 h in ns. -/
def dayNs : Nat := 86400000000000
/-- The sub-array of a row number, and its bank. -/
def subOf (n : Nat) : Nat := n / 4224 * 8 + n % 4224 / 512
/-- A slice with a row marked; four marked rows mark their sub-array, three marked sub-arrays their bank. -/
def Slice.markRow (k : Slice) (n now : Nat) : Slice :=
  if 4096 ≤ n % 4224 then k
  else
    let recent (l : List (Nat × Nat)) := l.filter (fun x => decide (now ≤ x.2 + dayNs))
    let rows := (n, now) :: (recent k.rowMarks).filter (fun x => x.1 != n)
    let mine := rows.filter (fun x => subOf x.1 == subOf n)
    if mine.length < 4 then { k with rowMarks := rows }
    else
      let rows := rows.filter (fun x => subOf x.1 != subOf n)
      let subs := (subOf n, now) :: (recent k.subMarks).filter (fun x => x.1 != subOf n)
      let bank := subOf n / 8
      if (subs.filter (fun x => x.1 / 8 == bank)).length < 3 then { k with rowMarks := rows, subMarks := subs }
      else { k with rowMarks := rows, subMarks := subs.filter (fun x => x.1 / 8 != bank), bankMarks := (bank, now) :: k.bankMarks }

/-! ## Units and their blocks (R202, R265, R266) -/

/-- The number of a run state (Table 9.4). -/
def unitStNo : UnitSt → Nat
  | .idle => 0
  | .running => 1
  | .waiting => 2
  | .suspended => 3
  | .paused => 4
  | .ended => 5
  | .failed => 6
  | .fenced => 7
/-- A unit's status word (Table 9.4). -/
def statusWord (x : BankUnit) : W64 :=
  BitVec.ofNat 64 (unitStNo x.st * 2 ^ 60 + x.code % 16 * 2 ^ 56 + x.pc % 256 * 2 ^ 48 + x.mark.toNat * 2 ^ 40
    + Nat.min x.segments 4095 * 2 ^ 28 + Nat.min x.forced 255 * 2 ^ 20 + Nat.min x.corrections 63 * 2 ^ 14
    + Nat.min x.uncorr 63 * 2 ^ 8 + Nat.min x.poisonedW 63 * 4 + (if x.refreshSusp then 2 else 0) + (if x.classB then 1 else 0))
/-- Whether a unit's program has started and not ended (R258). -/
def BankUnit.active (x : BankUnit) : Bool :=
  match x.st with
  | .running | .waiting | .suspended | .paused => true
  | _ => false
/-- Records the final status word of a launch's unit; the controller reads it at the ready signal (R248). -/
def Slice.setFinal (k : Slice) (id : Nat) (u : UnitId) (w : W64) : Slice :=
  let put (l : Launch) : Launch := if l.id = id then { l with final := smSet l.final u.val w } else l
  { k with launches := k.launches.map put, liveWords := smSet k.liveWords u.val w }
/-- The MEM_NB_CODE records of a segment that ends: one for each count that is nonzero, with the counts and the first block (R201). -/
def State.segRecords (s : State) (c : CoreId) (u : UnitId) : State :=
  let x := s.unit c u
  let one (s : State) (p : Nat × Option Coord) : State :=
    if p.1 = 0 then s
    else s.log memNbCode (srcUnit c) (locUnit c u) 0 (some (x.ctx, x.part))
      [BitVec.ofNat 64 u.val, BitVec.ofNat 64 x.segC.1, BitVec.ofNat 64 x.segU.1, BitVec.ofNat 64 x.segP.1,
       (match p.2 with | some a => locBlock c a | none => 0)]
  if x.segment.isSome then one (one (one s x.segC) x.segU) x.segP else s
/-- A unit's program ends in a state with a code: its segment ends and its status word is final. -/
def State.endUnit (s : State) (c : CoreId) (u : UnitId) (st : UnitSt) (code : Nat) : State :=
  let s := s.segRecords c u
  let s := s.modUnit c u (fun x => { x with st := st, code := code, segment := none })
  let x := s.unit c u
  s.modSlice c (fun k => k.setFinal x.launch u (statusWord x))
/-- A launch that waited for a unit ends there without running, in a state with a code. -/
def State.dropPending (s : State) (c : CoreId) (u : UnitId) (st : UnitSt) (code : Nat) : State :=
  match (s.unit c u).pendingLaunch with
  | some id =>
    let s := s.modUnit c u (fun x => { BankUnit.reset with
      st := st, code := code, fencedU := x.fencedU, faults := x.faults, checkErrs := x.checkErrs, wrote := x.wrote, launch := id })
    s.modSlice c (fun k => k.setFinal id u (statusWord (s.unit c u)))
  | none => s
/-- Fences a unit: it runs no program (R266); a running program ends with ST_NB_FENCED. Causes: 0 faults, 1 check errors. -/
def State.fenceUnit (s : State) (c : CoreId) (u : UnitId) (cause : Nat) : State :=
  if (s.unit c u).fencedU then s
  else
    let s := if (s.unit c u).active then s.endUnit c u .fenced 7 else s
    let s := (s.modUnit c u (fun x => { x with fencedU := true })).dropPending c u .fenced 7
    let n := ((s.slice c).units.filter (fun x => x.2.fencedU)).length
    (s.addFence 3 c.val u.val).log nbuFenced (srcUnit c) (locUnit c u) 0 none [BitVec.ofNat 64 cause, BitVec.ofNat 64 n]
/-- An error found in a block: two within 1 s in blocks that one unit was the last to write fence it (R202). -/
def State.unitError (s : State) (c : CoreId) (a : Coord) : State :=
  let u := unitOf a
  let x := s.unit c u
  if x.wrote.contains (blkIndex c a) then
    let ts := x.checkErrs.filter (fun t => decide (s.now ≤ t + 1000000000))
    let s := s.modUnit c u (fun y => { y with checkErrs := s.now :: ts })
    if ts.isEmpty then s else s.fenceUnit c u 1
  else s
/-- A block that a requester other than its unit writes. -/
def State.unitForgets (s : State) (c : CoreId) (a : Coord) : State :=
  if (s.unit c (unitOf a)).wrote.contains (blkIndex c a) then
    s.modUnit c (unitOf a) (fun x => { x with wrote := x.wrote.erase (blkIndex c a) })
  else s

/-! ## Pages under a block (R234, R235) -/

/-- Width in bits of a key or value format code: 2 K8, 3 K4, 4 K2. -/
def kvBits (f : Nat) : Nat := if f = 2 then 8 else if f = 3 then 4 else 2
/-- Local rows of a frame: k + v + 1 (R269). -/
def frameRows (kf vf : Nat) : Nat := kvBits kf + kvBits vf + 1
/-- Whether a page's frame in a slice holds a block. -/
def Page.holdsBlock (p : Page) (c : CoreId) (a : Coord) : Bool :=
  (p.st == .resident || p.st == .spilling || p.st == .filling)
  && p.core == c && p.unit == unitOf a && decide (p.row ≤ a.row.val)
  && decide (a.row.val < p.row + frameRows p.kfmt p.vfmt)
/-- A write to a page: its spill is cancelled and its slot freed (R235); its clean copy is freed (R234). -/
def Page.written (p : Page) : Page :=
  match p.st with
  | .spilling => { p with st := .resident, clean := false, slot := 0, gen := p.gen + 1 }
  | .resident => if p.clean then { p with clean := false, slot := 0, gen := p.gen + 1 } else p
  | _ => p
/-- The state after a requester wrote a block of a page. -/
def State.pageWritten (s : State) (c : CoreId) (a : Coord) : State :=
  { s with pages := updWhere (fun p => p.holdsBlock c a) Page.written s.pages }

/-! ## The slice controller's decoding (R199-R204) -/

/-- Logs a correction, or adds it to the slice's previous record (R203). -/
def State.noteCe (s : State) (c : CoreId) (p : Coord) (bit : Nat) (syn : W32) (ty : Nat) : State :=
  let s := { s with mem := { s.mem with ceCount := satAdd s.mem.ceCount 1 } }
  let blk := blkIndex c p
  let again := match (s.slice c).lastCe with
    | some (b, i, t, q) =>
      if b = blk ∧ i = bit ∧ s.now ≤ t + 1000000 ∧ s.err.entries.any (fun r => r.src == srcSlice c && r.seq == BitVec.ofNat 32 q
          && r.code == memCe.code) then some q else none
    | none => none
  match again with
  | some q =>
    let hit (r : LogRec) : Bool := r.src == srcSlice c && r.seq == BitVec.ofNat 32 q && r.code == memCe.code
    let more (r : LogRec) : LogRec := { r with repeats := r.repeats + 1, detail := r.detail.set 3 ((r.repeats + 1).setWidth 64) }
    { s with err := { s.err with entries := updWhere hit more s.err.entries } }
  | none =>
    let q := (s.err.srcBuf (srcSlice c)).seq.toNat
    let s := s.log memCe (srcSlice c) (locBlock c p) 0 none
      [BitVec.ofNat 64 bit, syn.setWidth 64, BitVec.ofNat 64 ty, 0]
    s.modSlice c (fun k => { k with lastCe := some (blk, bit, s.now, q) })
/-- Corrections on one bit lane in at least two banks within 1 ms, 16 or more (R178). -/
def laneFault (l : List (Nat × Nat × Nat)) (lane now : Nat) : Bool :=
  let m := l.filter (fun x => x.1 == lane && decide (now ≤ x.2.2 + 1000000))
  decide (16 ≤ m.length) && m.any (fun x => m.any (fun y => x.2.1 != y.2.1))
/-- Book-keeping of a correction: the lane's errors, and a hard correction's row mark. -/
def State.noteHard (s : State) (c : CoreId) (p : Coord) (bit : Nat) : State :=
  let s := s.modChan c p.ch (fun x => { x with laneErr :=
    (bit, p.half.val * 16 + p.bank.val, s.now) :: x.laneErr.filter (fun e => decide (s.now ≤ e.2.2 + 1000000)) })
  let hard := (s.slice c).hardBits.any (fun x => x.1 == blkIndex c p && x.2.1 == bit && decide (s.now ≤ x.2.2 + dayNs))
  s.modSlice c (fun k =>
    let k := { k with hardBits := (blkIndex c p, bit, s.now) ::
      k.hardBits.filter (fun x => decide (s.now ≤ x.2.2 + dayNs) && !(x.1 == blkIndex c p && x.2.1 == bit)) }
    if hard && !(laneFault (s.chan c p.ch).laneErr bit s.now) then k.markRow (rowId p) s.now else k)
/-- A first uncorrectable block: it counts for its channel, marks its row and is charged to the unit that wrote it. -/
def State.noteBad (s : State) (c : CoreId) (a p : Coord) : State :=
  let s := s.modChan c p.ch (fun x => { x with uncorr :=
    (p.half.val * 16 + p.bank.val, s.now) :: x.uncorr.filter (fun e => decide (s.now ≤ e.2 + 1000000)) })
  (s.modSlice c (fun k => k.markRow (rowId p) s.now)).unitError c a
/-- The numbers of the protection types (Table 7.3). -/
def ptypeNo : PType → Nat
  | .weight => 0
  | .state => 1
  | .activation => 2
/-- MEM_UE: for a weight region that will be restored it opens the handling span of the restore (R452). -/
def State.logUe (s : State) (c : CoreId) (p : Coord) (syn : W32) (r : Option Region) : State :=
  let ty := match r with | some r => ptypeNo r.ptype | none => 1
  let id := match r with | some r => r.id | none => 0
  let own : Owner := r.map (fun r => (r.ctx, r.part))
  let det := [syn.setWidth 64, BitVec.ofNat 64 ty, id.setWidth 64]
  match r with
  | some x =>
    if x.ptype = .weight ∧ x.restore ≠ .none ∧ x.recovering = false ∧ x.fenced = false then
      s.logOpen memUe (srcSlice c) (locBlock c p) 0 own det
    else s.log memUe (srcSlice c) (locBlock c p) 0 own det
  | none => s.log memUe (srcSlice c) (locBlock c p) 0 own det

/-- What a decoder made of a block: the data and whether it is poisoned. -/
structure Got where
  data : BlockData
  poison : Bool
  deriving DecidableEq, Repr

/-- A read of a block of the banks by the slice controller, with correction, write-back, marking, records and marks.
`a` is the block's address, its data lies at `(s.slice c).place a`. -/
def State.bankRead (s : State) (c : CoreId) (a : Coord) : State × Got :=
  let p := (s.slice c).place a
  let d := s.blkData c p
  let k := s.blkCheck c p
  if s.ptypeAt c a = .activation then
    if flagPoisoned k then (s, { data := d, poison := true })
    else if failingRows d k = 0 then (s, { data := d, poison := false })
    else
      let s := s.setBlk c p d (0xA5A5#16 ++ BitVec.ofNat 16 (bits k 0 16))
      let s := s.log memDoErr (srcSlice c) (locBlock c p) 0 ((s.regionAt c a).map (fun r => (r.ctx, r.part)))
        [BitVec.ofNat 64 (failingRows d k)]
      (s.noteBad c a p, { data := d, poison := true })
  else
    match decodeFull d k with
    | .clean => (s, { data := d, poison := false })
    | .poisoned => (s, { data := d, poison := true })
    | .uncorrectable =>
      let r := s.regionAt c a
      let s := (s.setBlk c p d (poisonWord d)).logUe c p (syndrome d k) r
      let s := s.noteBad c a p
      (match r, s.blockView c a with
        | some r, some (_, off) => s.regionLoses r (r.lineOf c off)
        | _, _ => s, { data := d, poison := true })
    | x =>
      let m := mended d x
      let s := s.setBlk c p m (checkWord m)
      let bit := (mendedBit x).getD 0
      let s := s.noteCe c p bit (syndrome d k) (ptypeNo (s.ptypeAt c a))
      ((s.noteHard c p bit).unitError c a, { data := m, poison := false })

/-- Bytes of one block taken from another where a mask has them. -/
def mergeBytes (old new : BlockData) (mask : BitVec 32) : BlockData :=
  let m := (List.range 32).foldl (fun acc i => if mask.getLsbD i then acc + 255 * 2 ^ (8 * i) else acc) 0
  (old &&& ~~~(BitVec.ofNat 256 m)) ||| (new &&& BitVec.ofNat 256 m)

/-- The entry of a channel's eddy that holds a block. -/
def State.eddyAt (s : State) (c : CoreId) (a : Coord) : Option EddyEntry :=
  (s.chan c a.ch).eddy.find? (fun e => e.blk == blkIndex c a)
/-- A read by a requester: the banks' block with the eddy's bytes merged in (R175). A lost channel returns poison (R188). -/
def State.ctlRead (s : State) (c : CoreId) (a : Coord) : State × Got :=
  if (s.chan c a.ch).lost then (s, { data := s.blkData c ((s.slice c).place a), poison := true })
  else
    let r := s.bankRead c a
    match s.eddyAt c a with
    | some e => (r.1, { r.2 with data := mergeBytes r.2.data e.data e.mask })
    | none => r

/-- Writes a whole block into the banks with a fresh check word (R192, R197, R198). -/
def State.bankWrite (s : State) (c : CoreId) (a : Coord) (d : BlockData) (poison : Bool) : State :=
  let p := (s.slice c).place a
  let k := if s.ptypeAt c a = .activation then actWord d poison else if poison then poisonWord d else checkWord d
  s.setBlk c p d k
/-- Drops an eddy entry. -/
def State.dropEddy (s : State) (c : CoreId) (a : Coord) : State :=
  if (s.eddyAt c a).isSome then
    s.modChan c a.ch (fun x => { x with eddy := x.eddy.filter (fun e => e.blk != blkIndex c a) })
  else s

/-- A flush of an eddy entry of a block (R174, R177): a full mask is a plain write, a partial one a read-modify-write. -/
def State.flushEntry (s : State) (c : CoreId) (a : Coord) (e : EddyEntry) : State :=
  let s := s.dropEddy c a
  if e.mask = 0xFFFFFFFF then s.bankWrite c a e.data false
  else
    let p := (s.slice c).place a
    let d := s.blkData c p
    let k := s.blkCheck c p
    if s.ptypeAt c a = .activation then
      if flagPoisoned k then s.bankWrite c a (mergeBytes d e.data e.mask) true
      else if failingRows d k = 0 then s.bankWrite c a (mergeBytes d e.data e.mask) false
      else ((s.bankWrite c a (mergeBytes d e.data e.mask) true).noteBad c a p).log memEddyPoison (srcSlice c) (locBlock c p)
    else match decodeFull d k with
      | .poisoned => s.bankWrite c a (mergeBytes d e.data e.mask) true
      | .uncorrectable =>
        ((s.bankWrite c a (mergeBytes d e.data e.mask) true).noteBad c a p).log memEddyPoison (srcSlice c) (locBlock c p)
      | _ =>
        let r := s.bankRead c a
        r.1.bankWrite c a (mergeBytes r.2.data e.data e.mask) false
/-- The coordinates of a block index, in its slice. -/
def idxCoord (n : Nat) : Coord where
  ch := Fin.ofNat 4 (n / 64 / 4224 / 16 / 2)
  half := Fin.ofNat 2 (n / 64 / 4224 / 16)
  bank := Fin.ofNat 16 (n / 64 / 4224)
  row := Fin.ofNat 4224 (n / 64)
  blk := Fin.ofNat 64 n
/-- Flushes the eddy entries of a channel that a test picks. -/
def State.flushWhere (s : State) (c : CoreId) (ch : ChanId) (f : EddyEntry → Bool) : State :=
  ((s.chan c ch).eddy.filter f).foldl (fun s e => s.flushEntry c (idxCoord e.blk) e) s
/-- The oldest entry of an eddy. -/
def oldestEntry : List EddyEntry → Option EddyEntry
  | [] => none
  | e :: t => match oldestEntry t with
    | some x => if e.stamp ≤ x.stamp then some e else some x
    | none => some e
/-- A narrow write merges into the eddy (R174). -/
def State.eddyPut (s : State) (c : CoreId) (a : Coord) (d : BlockData) (mask : BitVec 32) : State :=
  match s.eddyAt c a with
  | some e =>
    let e' := { e with data := mergeBytes e.data d mask, mask := e.mask ||| mask }
    if e'.mask = 0xFFFFFFFF then s.flushEntry c a e'
    else s.modChan c a.ch (fun x => { x with eddy := updWhere (fun y => y.blk == e.blk) (fun _ => e') x.eddy })
  | none =>
    let s := if 16 ≤ (s.chan c a.ch).eddy.length then
      (match oldestEntry (s.chan c a.ch).eddy with | some e => s.flushEntry c (idxCoord e.blk) e | none => s) else s
    s.modChan c a.ch (fun x => { x with eddy := x.eddy ++ [{ blk := blkIndex c a, data := mergeBytes 0 d mask, mask := mask, stamp := s.now }] })

/-- Whether a mask is made of whole aligned 16-bit units. -/
def maskOfPairs (mask : BitVec 32) : Bool := (List.range 16).all (fun i => mask.getLsbD (2 * i) == mask.getLsbD (2 * i + 1))
/-- A write of aligned 16-bit units of an activation block: the rows' data and row parities, nothing else (R197). -/
def State.pairWrite (s : State) (c : CoreId) (a : Coord) (d : BlockData) (mask : BitVec 32) : State :=
  let p := (s.slice c).place a
  let m := mergeBytes (s.blkData c p) d mask
  let k := s.blkCheck c p
  let rows := (List.range 16).foldl (fun acc i => if mask.getLsbD (2 * i) then acc + 2 ^ i else acc) 0
  let par := (bits k 0 16 &&& (65535 - rows)) ||| ((rowParities m ^^^ 0xA5A5#16).toNat &&& rows)
  s.setBlk c p m (BitVec.ofNat 16 (bits k 16 16) ++ BitVec.ofNat 16 par)

/-- A posted write that a channel engine accepted (R158, R173, R196-R198): a lost channel discards it. -/
def State.ctlWrite (s : State) (c : CoreId) (a : Coord) (d : BlockData) (mask : BitVec 32) (poison : Bool) : State :=
  if (s.chan c a.ch).lost ∨ mask = 0 then s
  else
    let s := (s.unitForgets c a).pageWritten c a
    if mask = 0xFFFFFFFF then (s.dropEddy c a).bankWrite c a d poison
    else if poison then
      -- a narrow write of poisoned data: the whole block is computed from poisoned input
      let r := s.ctlRead c a
      (r.1.dropEddy c a).bankWrite c a (mergeBytes r.2.data d mask) true
    else if s.ptypeAt c a = .activation ∧ maskOfPairs mask ∧ (s.eddyAt c a).isNone then s.pairWrite c a d mask
    else s.eddyPut c a d mask

/-! ## Requests through views -/

/-- Whether a channel holds its accesses: a retrain, a critical layer, or self-refresh (R164, R179, R189). -/
def State.chanHolds (s : State) (c : CoreId) (ch : ChanId) : Bool :=
  let k := s.slice c
  (k.chan ch).retrain.isSome || k.selfRefresh
  || ((k.layers.getD (2 * ch.val) Layer.reset).band == 3 || (k.layers.getD (2 * ch.val + 1) Layer.reset).band == 3)
/-- Whether a segment of a near-bank unit holds a block's bank pair (R256). -/
def State.pairHeld (s : State) (c : CoreId) (a : Coord) : Bool := (s.unit c (unitOf a)).segment.isSome
/-- Whether a map change holds a spread line (Table 8.4, step 3). -/
def State.lineHeld (s : State) (l : Nat) : Bool :=
  match s.map.change with
  | some x =>
    let h := spreadHome l
    x.changed.contains h.1 || (match s.setLoc h.1 h.2 with | some (g, _) => x.changed.contains g | none => false)
  | none => false
/-- Whether an access to a byte of a view waits. -/
def State.byteHeld (s : State) (c : CoreId) (view a : Nat) : Bool :=
  match s.target c view a with
  | some (.block t x) => (view == 1 && s.lineHeld (a / 4096)) || (!(s.chan t x.ch).lost && (s.chanHolds t x.ch || s.pairHeld t x))
  | _ => view == 1 && s.lineHeld (a / 4096)
/-- Blocks that a byte range touches. -/
def blocksOf (a n : Nat) : List Nat := if n = 0 then [] else (List.range ((a + n - 1) / 32 + 1 - a / 32)).map (fun i => (a / 32 + i) * 32)
/-- Whether an access to a range of a view waits. -/
def State.rangeHeld (s : State) (c : CoreId) (view a n : Nat) : Bool := (blocksOf a n).any (fun b => s.byteHeld c view b)

/-- The 32 bytes of a block of a view, and whether they are poisoned. -/
def State.viewBlock (s : State) (c : CoreId) (view a : Nat) : State × List Byte × Bool :=
  match s.target c view a with
  | some (.block t x) => let r := s.ctlRead t x; (r.1, natLe 32 r.2.data.toNat, r.2.poison)
  | some (.far p o) => (s, memReadList zeroByte s.farMem (p.val * 2 ^ 40 + o) 32, !(s.farUp p))
  | _ => (s, List.replicate 32 0, true)
/-- The blocks of a list, read in order. -/
def State.viewBlocks (s : State) (c : CoreId) (view : Nat) : List Nat → State × List Byte × Bool
  | [] => (s, [], false)
  | b :: bs =>
    let r := s.viewBlock c view b
    let t := r.1.viewBlocks c view bs
    (t.1, r.2.1 ++ t.2.1, r.2.2 || t.2.2)
/-- A byte range of a view, read by the slice controllers or the far ports. -/
def State.viewRead (s : State) (c : CoreId) (view a n : Nat) : State × List Byte × Bool :=
  let r := s.viewBlocks c view (blocksOf a n)
  (r.1, (r.2.1.drop (a % 32)).take n, r.2.2)
/-- Writes bytes within one block of a view. -/
def State.viewPut (s : State) (c : CoreId) (view a : Nat) (bs : List Byte) (poison : Bool) : State :=
  match s.target c view a with
  | some (.block t x) =>
    let off := a % 32
    let mask := BitVec.ofNat 32 ((2 ^ bs.length - 1) * 2 ^ off)
    s.ctlWrite t x (BitVec.ofNat 256 (leNat (List.replicate off 0 ++ bs))) mask poison
  | some (.far p o) => if s.farUp p then { s with farMem := memWriteList zeroByte s.farMem (p.val * 2 ^ 40 + o) bs } else s
  | _ => s
/-- Writes a byte range of a view. -/
def State.viewWrite (s : State) (c : CoreId) (view a : Nat) (bs : List Byte) (poison : Bool) : State :=
  (blocksOf a bs.length).foldl (fun s b =>
    let lo := Nat.max a b
    let hi := Nat.min (a + bs.length) (b + 32)
    s.viewPut c view lo ((bs.drop (lo - a)).take (hi - lo)) poison) s

end Sys2Proof.Machine
end

