-- ==== Sys2Proof/Machine/Passes.lean ====
section
/-! DEFINITION. Array passes: operand ranges, drain arithmetic, issue checks and completion (R37-R40, R51-R78, R84, R85,
R134, R137-R140). -/

namespace Sys2Proof.Machine

/-! ## Free order of additions (R39, R111, R371) -/

/-- Removes the member at a place, and answers it with the rest. -/
def takeAt (l : List W32) (i : Nat) : W32 × List W32 := (l.getD i 0, l.eraseIdx i)

/-- The FP32 sum of terms in an order that `pick` names: at each step two terms are replaced by their rounded sum. -/
def treeSum (pick : Nat → Nat) : Nat → List W32 → W32
  | _, [] => 0
  | _, [x] => x
  | 0, x :: _ => x
  | n + 1, l =>
    let a := takeAt l (pick (2 * n) % l.length)
    let b := takeAt a.2 (pick (2 * n + 1) % a.2.length)
    treeSum pick n (fadd a.1 b.1 :: b.2)

/-- A sum in the free order number `draw`. -/
def freeSum (draw : Nat) (l : List W32) : W32 := treeSum (Config.addPick draw) l.length l

/-! ## Shapes (Table 3.3) -/

/-- The largest K-blocks and output columns of one pass of a shape. -/
def shapeLimits (shape : Nat) : Nat × Nat :=
  match shape with
  | 0 => (16, 32) | 1 => (1, 512) | 2 => (4, 128) | _ => (1, 512)

/-- Column tiles that n columns touch. -/
def colTiles (n : Nat) : Nat := (n + 31) / 32

/-- The arrays that contribute to column tile t, with the K-block each takes. -/
def arraysOf (p : PassP) (t : Nat) : List (Nat × Nat) :=
  match p.shape with
  | 0 => (List.range p.kb).map (fun b => (b, b))
  | 1 => if p.kb = 0 then [] else [(t, 0)]
  | 2 => (List.range p.kb).map (fun b => (4 * t + b, b))
  | _ => []

/-- A packing-table entry (Table 3.5). -/
structure PackEntry where
  act : Nat
  exps : Nat
  stride : Nat
  out : Nat
  ostride : Nat
  count : Nat
  deriving DecidableEq, Repr

/-- Entry a of a packing table at an address. -/
def packEntry (s : State) (c : CoreId) (addr a : Nat) : PackEntry :=
  let q0 := s.csWord c (addr + 16 * a)
  let q1 := s.csWord c (addr + 16 * a + 8)
  { act := bits q0 0 24, exps := bits q0 24 24, stride := bits q0 48 16,
    out := bits q1 0 24, ostride := bits q1 32 16, count := bits q1 24 8 }

/-- The 16 entries of a column-packed pass. -/
def packTable (s : State) (c : CoreId) (p : PassP) : List PackEntry :=
  match p.feed with
  | some f => (List.range 16).map (packEntry s c f.act.addr)
  | none => []

/-- The arrays a pass uses (R69, R70). -/
def usedArrays (s : State) (c : CoreId) (p : PassP) : List Nat :=
  match p.shape with
  | 0 => List.range p.kb
  | 1 => if p.kb = 0 then [] else List.range (colTiles p.n)
  | 2 => (List.range (colTiles p.n)).flatMap (fun t => (List.range p.kb).map (fun b => 4 * t + b))
  | _ => if p.kb = 0 then [] else (packTable s c p).zipIdx.filterMap (fun (e, a) => if e.count = 0 then none else some a)

/-- Whether a pass does array work and swaps tiles (R75, R76). -/
def passWorks (p : PassP) : Bool := decide (0 < p.m) && decide (0 < p.kb) && (p.shape == 3 || decide (0 < p.n))

/-- The sibling arrays of a split-precision pass (R137, R139). -/
def siblings (p : PassP) : List Nat :=
  match p.outlier, p.ocfg with
  | true, some o => if o.pair then [o.sib.val, o.sib.val + 1] else [o.sib.val]
  | _, _ => []

/-! ## Operands (R34, R53, R109) -/

/-- Bytes of a mantissa: 1 for A8, 2 for A16. -/
def actBytes (afmt : Nat) : Nat := if afmt = 0 then 1 else 2

/-- Address of the mantissas of K-block b of row i, and of its exponent. -/
def actAddr (act exps stride afmt i b : Nat) : Nat × Nat :=
  (act + i * stride * 32 + 32 * actBytes afmt * b, exps + i * stride / actBytes afmt + b)

/-- One mantissa: A8, or the signed high or unsigned low byte of A16 (R33, R53). -/
def mantissa (s : State) (c : CoreId) (addr afmt r : Nat) : Int :=
  match afmt with
  | 0 => (s.csByte c (addr + r)).toInt
  | 1 => (s.csByte c (addr + 2 * r + 1)).toInt
  | _ => (s.csByte c (addr + 2 * r)).toNat

/-- The 32 mantissas of a block and its exponent code. -/
def actBlock (s : State) (c : CoreId) (act exps stride afmt i b : Nat) : List Int × Nat :=
  let a := actAddr act exps stride afmt i b
  ((List.range 32).map (mantissa s c a.1 afmt), (s.csByte c a.2).toNat)

/-! ## Drain arithmetic (R38, R40) -/

/-- A block term in FP32: t rounded, then scaled; a code 0xFF makes it NaN. -/
def blockTerm (s8 : Bool) (scale tileExp expCode afmt : Nat) (v : Int) : W32 :=
  if expCode = 0xFF ∨ (s8 = false ∧ scale = 0xFF) ∨ (s8 = true ∧ tileExp = 0xFF) then qnan
  else
    let t := if s8 then v * scale else v
    let xw : Int := if s8 then (tileExp : Int) - 134 else (scale : Int) - 127
    let xa : Int := if afmt = 2 then (expCode : Int) - 141 else (expCode : Int) - 133
    toF32 ((f32v (toF32 (FVal.ofInt t))).scale (xw + xa))

/-- The block integer of a column: mantissas times weights (R38). -/
def blockInt (t : Tile) (ms : List Int) (col : Nat) : Int :=
  (ms.zipIdx.map (fun (m, r) => m * weightValue t.wfmt (tileCode t.bytes t.wfmt r col))).sum

/-- The scale code of a column of a tile. -/
def tileScale (t : Tile) (col : Nat) : Nat := (t.bytes.getD (128 * planes t.wfmt + col) 0).toNat

/-- The term of a tile's column for one block of activations. -/
def tileTerm (t : Tile) (afmt : Nat) (blk : List Int × Nat) (col : Nat) : W32 :=
  blockTerm t.s8 (tileScale t col) t.exp.toNat blk.2 afmt (blockInt t blk.1 col)

/-! ## Outlier rows (R138, R140) -/

/-- The valid entries of an outlier list: (row of the outlier tile, K row of the pass). -/
def outlierRows (s : State) (c : CoreId) (o : OutlierCfg) : List (Nat × Nat) :=
  (List.range 32).filterMap (fun r =>
    let e := leNat (s.csRead c (o.listRng.addr + 2 * r) 2)
    if e / 2 ^ 15 % 2 = 1 then some (r, e % 512) else none)

/-- The activations fed to a primary array: zero in outlier K rows. -/
def maskOutliers (rows : List (Nat × Nat)) (b : Nat) (ms : List Int) : List Int :=
  ms.zipIdx.map (fun (m, r) => if rows.any (fun e => e.2 == 32 * b + r) then 0 else m)

/-- An integer times 2^-d, rounded to nearest even (R140). -/
def rneShift (m : Int) (d : Nat) : Int :=
  let q : Int := roundQ .rne (decide (m < 0)) m.natAbs (2 ^ d)
  if m < 0 then -q else q

/-- The outlier block of a row: mantissas aligned to the largest contributing exponent. `blocks` are the row's source blocks. -/
def outlierBlock (rows : List (Nat × Nat)) (blocks : List (List Int × Nat)) : List Int × Nat :=
  let srcOf (k : Nat) : List Int × Nat := blocks.getD (k / 32) ([], 0)
  let eo := rows.foldl (fun acc e => Nat.max acc (srcOf e.2).2) 0
  ((List.range 32).map (fun r =>
    match rows.find? (fun e => e.1 == r) with
    | some e => rneShift ((srcOf e.2).1.getD (e.2 % 32) 0) (eo - (srcOf e.2).2)
    | none => 0), eo)

/-! ## The terms of one output element -/

/-- Activation blocks of a row that the pass reads. -/
def rowBlocks (s : State) (c : CoreId) (p : PassP) (i : Nat) : List (List Int × Nat) :=
  match p.feed with
  | some f => (List.range p.kb).map (actBlock s c f.act.addr f.exps.addr f.stride p.afmt i)
  | none => []

/-- The block terms of row i, column n, for the shapes but column packing; outlier terms included. -/
def elementTerms (p : PassP) (tiles : List (Option Tile)) (orows : List (Nat × Nat)) (blocks : List (List Int × Nat))
    (n : Nat) : List W32 :=
  let prim := (arraysOf p (n / 32)).filterMap (fun (a, b) =>
    match tiles.getD a none, blocks[b]? with
    | some t, some blk => some (tileTerm t p.afmt (maskOutliers orows b blk.1, blk.2) (n % 32))
    | _, _ => none)
  let out := match siblings p with
    | a :: _ => (match tiles.getD a none with
        | some t => [tileTerm t p.afmt (outlierBlock orows blocks) (n % 32)]
        | none => [])
    | [] => []
  prim ++ out

/-- The outlier rows in force for a pass. -/
def passOutliers (s : State) (c : CoreId) (p : PassP) : List (Nat × Nat) :=
  match p.outlier, p.ocfg with
  | true, some o => outlierRows s c o
  | _, _ => []

/-- An FP32 word of core store. -/
def csF32 (s : State) (c : CoreId) (a : Nat) : W32 := BitVec.ofNat 32 (leNat (s.csRead c a 4))

/-- The start value of an accumulator (Table 3.1): +0, the bias row, or the tile's contents. -/
def startAcc (s : State) (c : CoreId) (p : PassP) (biasIdx addr : Nat) : W32 :=
  match p.init with
  | 0 => 0
  | 1 => match p.drain with
    | some d => (match d.bias with | some b => csF32 s c (b.addr + 4 * biasIdx) | none => 0)
    | none => 0
  | _ => csF32 s c addr

/-- The results of one row: address and value of each element. Draws of the addition order are numbered from `draw`. -/
def passRow (s : State) (c : CoreId) (p : PassP) (tiles : List (Option Tile)) (draw i : Nat) : List (Nat × W32) :=
  if p.shape = 3 then
    (packTable s c p).zipIdx.flatMap (fun (e, a) =>
      let blk := actBlock s c e.act e.exps e.stride p.afmt i 0
      (List.range e.count).filterMap (fun col =>
        let addr := e.out + 4 * (i * e.ostride + col)
        if p.kb = 0 then some (addr, startAcc s c p (32 * a + col) addr)
        else match tiles.getD a none with
        | some t => some (addr, freeSum (draw + 32 * a + col) [startAcc s c p (32 * a + col) addr, tileTerm t p.afmt blk col])
        | none => none))
  else match p.drain with
    | none => []
    | some d =>
      let blocks := rowBlocks s c p i
      let orows := passOutliers s c p
      (List.range p.n).map (fun n =>
        let addr := d.out.addr + 4 * (i * d.stride + n)
        (addr, freeSum (draw + n) (startAcc s c p n addr :: elementTerms p tiles orows blocks n)))

/-- Whether an FP32 word is a nonzero subnormal. -/
def isSubnormal (x : W32) : Bool := bits x 23 8 == 0 && bits x 0 23 != 0

/-- Counts of R134 over the results of a pass. -/
def countResults (vs : List W32) (a : ArithCnt) : ArithCnt :=
  { a with
    nan := satAdd a.nan (vs.filter (fun v => (f32v v).isNan)).length
    inf := satAdd a.inf (vs.filter (fun v => (f32v v).isInf)).length
    subn := satAdd a.subn (vs.filter isSubnormal).length }

/-- Codes 0xFF among the tiles and activation exponents of a pass (R134). -/
def countCodes (s : State) (c : CoreId) (p : PassP) (tiles : List (Option Tile)) : Nat :=
  let ts := ((usedArrays s c p) ++ (siblings p).take 1).filterMap (fun a => tiles.getD a none)
  let w := (ts.map (fun t =>
    if t.s8 then (if t.exp = 0xFF then 1 else 0)
    else ((List.range 32).filter (fun n => tileScale t n == 0xFF)).length)).sum
  let es := (List.range p.m).flatMap (fun i =>
    if p.shape = 3 then (packTable s c p).filterMap (fun e =>
      if e.count = 0 ∨ p.kb = 0 then none else some (actBlock s c e.act e.exps e.stride p.afmt i 0).2)
    else (rowBlocks s c p i).map (·.2))
  w + (es.filter (· == 0xFF)).length

/-! ## Ranges (R77, R102, R109) -/

/-- Byte segments of core store that a pass reads, with the buffer each lies in; none for the packed shape. -/
def passReadSegs (p : PassP) : List (Nat × Nat) :=
  (match p.feed with
    | some f => if p.kb = 0 ∨ p.shape = 3 then [] else (List.range p.m).flatMap (fun i =>
        let a := actAddr f.act.addr f.exps.addr f.stride p.afmt i 0
        [(a.1, 32 * actBytes p.afmt * p.kb), (a.2, p.kb)])
    | none => [])
  ++ (match p.init, p.drain with
    | 1, some d => (match d.bias with | some b => [(b.addr, 4 * (if p.shape = 3 then 512 else p.n))] | none => [])
    | _, _ => [])

/-- Segments that the packing table names: read and written. -/
def packSegs (s : State) (c : CoreId) (p : PassP) : List (Nat × Nat) × List (Nat × Nat) :=
  let es := (packTable s c p).filter (fun e => e.count != 0)
  (if p.kb = 0 then [] else es.flatMap (fun e => (List.range p.m).flatMap (fun i =>
      let a := actAddr e.act e.exps e.stride p.afmt i 0
      [(a.1, 32 * actBytes p.afmt), (a.2, 1)])),
   es.flatMap (fun e => (List.range p.m).map (fun i => (e.out + 4 * i * e.ostride, 4 * e.count))))

/-- Segments a pass reads beside its output. -/
def readSegs (s : State) (c : CoreId) (p : PassP) : List (Nat × Nat) :=
  passReadSegs p ++ (if p.shape = 3 then (packSegs s c p).1 else [])

/-- The sounding settings of a pass with sound = 1; the low pass of a pair ignores its bit (R144, R145). -/
def soundSrc (p : PassP) : Option SoundCfg := if p.sound && p.afmt != 2 then p.scfg else none
/-- Segments of the sounding source that a pass names (Table 5.3). -/
def soundSegs (p : PassP) : List (Nat × Nat) :=
  match passWorks p, soundSrc p with
  | true, some q => (List.range p.m).map (fun i => (q.src.addr + 32 * i * q.stride, 32 * p.kb * (if q.bf16 then 2 else 4)))
  | _, _ => []

/-- Segments a pass writes. -/
def writeSegs (s : State) (c : CoreId) (p : PassP) : List (Nat × Nat) :=
  if p.shape = 3 then (packSegs s c p).2
  else match p.drain with
    | some d => (List.range p.m).map (fun i => (d.out.addr + 4 * (i * d.stride), 4 * p.n))
    | none => []

/-- The buffers that segments lie wholly within; none when one does not lie in a binding (R70). -/
def segBuffers (k : Core) (segs : List (Nat × Nat)) : Option (List Nat) :=
  segs.foldr (fun g acc =>
    match acc, k.bufs.find? (fun b => decide (b.base ≤ g.1) && decide (g.1 + g.2 ≤ b.base + b.size)) with
    | some l, some b => some (if l.contains b.num then l else b.num :: l)
    | _, _ => none) (some [])

/-- Whether segments stay inside one buffer. -/
def segsIn (b : Buffer) (segs : List (Nat × Nat)) : Bool :=
  segs.all (fun g => decide (b.base ≤ g.1) && decide (g.1 + g.2 ≤ b.base + b.size))

/-- Whether two lists of segments share a byte. -/
def segsMeet (a b : List (Nat × Nat)) : Bool := a.any (fun x => b.any (fun y => overlaps x.1 x.2 y.1 y.2))

/-! ## Checks at issue (R64, R66, R70, R77, R102, R109, R138, R139, R143) -/

/-- The outlier list's failure, if any: a K row named twice, or at or beyond 32 × kb (R138). -/
def outlierListBad (rows : List (Nat × Nat)) (kb : Nat) : Bool :=
  rows.any (fun e => decide (32 * kb ≤ e.2)) || decide ((rows.map (·.2)).eraseDups.length ≠ rows.length)

/-- The buffer an operand range must stay in, judged on its segments. -/
def boundsBad (k : Core) (r : Rng) (segs : List (Nat × Nat)) : Bool :=
  match k.buffer r.buf with
  | some b => !(segsIn b segs)
  | none => true

/-- The tiles a pass meets: after the swap, or the active ones. -/
def passTiles (g : Group) (keep : Bool) (arrays : List Nat) : List (Option Tile) :=
  g.active.zipIdx.map (fun (t, a) => if !keep && arrays.contains a then g.shadow.getD a none else t)

/-- A test of an optional value, with the answer for none. -/
def optIs {α : Type} (d : Bool) (f : α → Bool) : Option α → Bool
  | some x => f x
  | none => d

/-- The bias range of a pass. -/
def biasRng (p : PassP) : Option Rng := p.drain.bind (·.bias)

/-- Whether the tiles the pass meets are missing (R77), or of another format or kind (R109, R139). -/
def tileMissing (tiles : List (Option Tile)) (as : List Nat) : Bool := as.any (fun a => (tiles.getD a none).isNone)
def tileWrong (p : PassP) (tiles : List (Option Tile)) (as : List Nat) (outlier : Bool) : Bool :=
  as.any (fun a => optIs true (fun (t : Tile) =>
    if outlier then !t.outlier else t.wfmt != p.wfmt || t.s8 != p.s8 || t.outlier) (tiles.getD a none))

/-- Whether the mantissas or exponents reach beyond their buffers. -/
def feedBad (k : Core) (p : PassP) : Bool :=
  optIs (passWorks p || p.shape == 3) (fun f =>
    if p.shape = 3 then boundsBad k f.act [(f.act.addr, 256)]
    else passWorks p && (boundsBad k f.act ((List.range p.m).map (fun i =>
        ((actAddr f.act.addr f.exps.addr f.stride p.afmt i 0).1, 32 * actBytes p.afmt * p.kb)))
      || boundsBad k f.exps ((List.range p.m).map (fun i =>
        ((actAddr f.act.addr f.exps.addr f.stride p.afmt i 0).2, p.kb))))) p.feed

/-- The status a pass fails with at issue, if any. -/
def passFails (s : State) (c : CoreId) (p : PassP) : Option (BitVec 16) :=
  let k := s.core c
  let g := k.group p.group
  let lim := shapeLimits p.shape
  let arrays := usedArrays s c p
  let sibs := siblings p
  let orows := passOutliers s c p
  let tiles := passTiles g p.keep (arrays ++ sibs)
  let ws := writeSegs s c p
  let rs := readSegs s c p
  if 65535 < p.m ∨ lim.1 < p.kb ∨ (p.shape ≠ 3 ∧ lim.2 < p.n) then some stPassShape
  else if p.shape = 3 ∧ (packTable s c p).any (fun e => decide (32 < e.count)) then some stPassShape
  else if p.outlier ∧ p.shape ≠ 0 then some stPassShape
  else if p.outlier ∧ p.ocfg = none then some stPassFormat
  else if sibs.any (fun a => decide (a < p.kb) || decide (15 < a)) then some stPassShape
  else if p.outlier ∧ outlierListBad orows p.kb then some stPassFormat
  else if p.sound ∧ p.afmt ≠ 2 ∧ p.scfg = none then some stPassFormat
  else if p.init = 1 ∧ biasRng p = none then some stPassFormat
  else if p.afmt = 2 ∧ g.lastHigh = false then some stPassNoTile
  else if p.afmt = 2 ∧ (p.keep = false ∨ p.init ≠ 2) then some stPassFormat
  else if passWorks p ∧ tileMissing tiles (arrays ++ sibs) then some stPassNoTile
  else if passWorks p ∧ (tileWrong p tiles arrays false || tileWrong p tiles sibs true) then some stPassFormat
  else if p.shape = 3 ∧ ((segBuffers k (packSegs s c p).1).isNone ∨ (segBuffers k ws).isNone) then some stPassBounds
  else if p.shape ≠ 3 ∧ 0 < p.m ∧ 0 < p.n ∧ optIs true (fun d => boundsBad k d.out ws) p.drain then some stPassBounds
  else if feedBad k p ∨ optIs false (fun (q : SoundCfg) => boundsBad k q.src (soundSegs p)) (soundSrc p) then some stPassBounds
  else if p.init = 1 ∧ optIs true (fun b => boundsBad k b [(b.addr, 4 * (if p.shape = 3 then 512 else p.n))]) (biasRng p) then
    some stPassBounds
  else if passWorks p ∧ optIs false (fun f => f.act.addr % 32 != 0) p.feed then some stBufAlign
  else if optIs false (fun d => d.out.addr % 4 != 0) p.drain then some stBufAlign
  else if optIs false (fun l => l.any (fun n => optIs true (fun (b : Buffer) => b.readOnly) (k.buffer n))) (segBuffers k ws) then
    some stBufReadonly
  else if segsMeet ws (rs ++ soundSegs p) then some stBufAlias
  else none

/-! ## Issue -/

/-- The buffers a pass reads and writes (R70, R99, R109), as they stand at issue. -/
def passBuffers (s : State) (c : CoreId) (p : PassP) : List Nat × List Nat :=
  let q := match soundSrc p with | some q => [q.src.buf] | none => []
  if p.shape = 3 then
    let k := s.core c
    let g := packSegs s c p
    let w := (segBuffers k g.2).getD []
    let r := (segBuffers k g.1).getD []
    let t := match p.feed with | some f => [f.act.buf] | none => []
    let b := match p.init, p.drain with
      | 1, some d => (match d.bias with | some b => [b.buf] | none => [])
      | _, _ => []
    (t ++ r ++ b ++ q ++ (if p.init = 2 then w else []), w)
  else
    let w := match p.drain with | some d => [d.out.buf] | none => []
    let r := match p.feed with | some f => if p.kb = 0 then [] else [f.act.buf, f.exps.buf] | none => []
    let b := match p.init, p.drain with
      | 1, some d => (match d.bias with | some b => [b.buf] | none => [])
      | _, _ => []
    (r ++ b ++ q ++ (if p.init = 2 then w else []), w)

/-- The output address that names a pass's output tile (R84). -/
def outAddr (p : PassP) : Nat :=
  match p.shape, p.drain, p.feed with
  | 3, _, some f => f.act.addr
  | _, some d, _ => d.out.addr
  | _, _, _ => 0

/-- The bytes of the operands of a pass (R85). -/
def operandBytes (s : State) (c : CoreId) (p : PassP) : List Byte :=
  (readSegs s c p).flatMap (fun g => s.csRead c g.1 g.2)

/-- The accumulation run after a pass issues (R84). -/
def joinRun (s : State) (c : CoreId) (g : Group) (p : PassP) (tiles : List (Option Tile)) (pc : Nat) : Run :=
  let rp : RunPass := { p := p, tiles := tiles, snap := operandBytes s c p }
  match g.run with
  | some r =>
    if p.init = 2 ∧ r.outAddr = outAddr p then { r with passes := r.passes ++ [rp] }
    else openRun rp
  | none => openRun rp
where
  /-- A run opened by a pass; an accumulating opener starts from the tile's contents. -/
  openRun (rp : RunPass) : Run :=
    { outAddr := outAddr p, runPc := pc,
      start := if p.init = 2 then (writeSegs s c p).map (fun g => (g.1, s.csRead c g.1 g.2)) else [],
      passes := [rp], retries := 0, replay := [], retrying := false, syndromes := [], held := false }

/-- Whether a group's tile port or arrays are busy with a load. -/
def groupLoading (k : Core) (g : GroupId) : Bool := (k.group g).loading.isSome

/-- Passes of a group in flight, oldest first. -/
def passesInFlight (k : Core) (g : GroupId) : List Entry :=
  k.inflight.filter (fun e => e.queue == .g g && (match e.op with | .pass _ _ => true | _ => false))

/-! ## Completion -/

/-- Writes rows [from, to) of a pass (R38, R39); rows met by a tile whose record changed are undefined (R85). -/
def writeRows (s : State) (c : CoreId) (p : PassP) (tiles : List (Option Tile)) (a b : Nat) : State × List W32 :=
  let used := (usedArrays s c p ++ siblings p).filterMap (fun x => tiles.getD x none)
  if used.any (·.stale) then ((writeSegs s c p).foldl (fun s g => s.csUndef c g.1 g.2) s, [])
  else
    ((List.range b).drop a).foldl (fun (acc : State × List W32) i =>
      let s := acc.1
      let es := passRow s c p tiles s.free i
      let s' := es.foldl (fun s e => s.csWrite c e.1 (natLe 4 e.2.toNat)) s
      (s'.drew 512, acc.2 ++ es.map (·.2))) (s, [])

/-- Poison that reaches the output of a pass (R78, R100). -/
def passPoisonIn (s : State) (c : CoreId) (p : PassP) (tiles : List (Option Tile)) : Bool :=
  let k := s.core c
  k.anyPoisoned (passBuffers s c p).1
  || ((usedArrays s c p ++ siblings p).filterMap (fun x => tiles.getD x none)).any (·.poisoned)

/-- Poison that the work item reports (R78): activations, bias or tile records, not the accumulated tile or
the sounding source. -/
def passReportsPoison (s : State) (c : CoreId) (p : PassP) (tiles : List (Option Tile)) : Bool :=
  let k := s.core c
  k.anyPoisoned (passBuffers s c { p with init := if p.init = 2 then 0 else p.init, sound := false }).1
  || (passWorks p && ((usedArrays s c p ++ siblings p).filterMap (fun x => tiles.getD x none)).any (·.poisoned))

/-- The ranges to mark when a pass completes: one per output buffer. A packed or strided tile never covers its buffer. -/
def passMarks (s : State) (c : CoreId) (p : PassP) : List Rng :=
  let w := (passBuffers s c p).2
  match p.shape, p.drain with
  | 3, _ => w.map (fun n => { buf := n, addr := 0, len := 0 })
  | _, some d =>
    if d.stride = p.n then [{ buf := d.out.buf, addr := d.out.addr, len := 4 * p.m * p.n }]
    else [{ buf := d.out.buf, addr := d.out.addr, len := 0 }]
  | _, none => []

/-- A pass writes its rows from its cursor, and its counts are added to the work item's totals (R134). -/
def runRows (s : State) (c : CoreId) (p : PassP) (tiles : List (Option Tile)) : State :=
  if p.m = 0 ∨ (p.shape ≠ 3 ∧ p.n = 0) then s
  else if p.kb = 0 ∧ p.init = 2 then s
  else
    let codes := if p.cursor = 0 then countCodes s c p tiles else 0
    let r := writeRows s c p tiles p.cursor p.m
    r.1.modCore c (fun k => { k with
      arith := k.arith.modify p.group.val (fun a =>
        let b := countResults r.2 p.done
        { nan := satAdd a.nan b.nan.toNat, inf := satAdd a.inf b.inf.toNat, subn := satAdd a.subn b.subn.toNat,
          nancode := satAdd a.nancode (b.nancode.toNat + codes) }) })

end Sys2Proof.Machine
end

