-- ==== Sys2Proof/Machine/Matrix.lean ====
section
/-! DEFINITION. Matrix instructions: dispatch (Table 4.6, 5.2, 5.3), issue and completion of tile loads, passes and group
settings (R61-R78, R84-R86, R108, R109, R137-R146). -/

namespace Sys2Proof.Machine

/-- The low bits of a register. -/
def regBits (k : Core) (r : BitVec 5) (n : Nat) : Nat := bits (k.reg r) 0 n

/-- The last setting of a group that is queued but has not issued. -/
def lastQueued {α : Type} (k : Core) (f : Op → Option α) : Option α :=
  (k.queues ++ k.stalled.toList).foldl (fun acc e => match f e.op with | some x => some x | none => acc) none

/-- The feeder settings the next pass of a group uses (R108). -/
def feedFor (k : Core) (g : GroupId) : Option FeedCfg :=
  match lastQueued k (fun o => match o with | .fcfg h x => if h = g then some x else none | _ => none) with
  | some x => some x
  | none => (k.group g).feed
/-- The drain settings the next pass of a group uses (R108). -/
def drainFor (k : Core) (g : GroupId) : Option DrainCfg :=
  match lastQueued k (fun o => match o with | .dcfg h x => if h = g then some x else none | _ => none) with
  | some x => some x
  | none => (k.group g).drain
/-- The outlier settings the next pass of a group uses (R137). -/
def outlierFor (k : Core) (g : GroupId) : Option OutlierCfg :=
  match lastQueued k (fun o => match o with | .ocfg h x => if h = g then some x else none | _ => none) with
  | some x => x
  | none => (k.group g).outlier
/-- The sounding settings the next pass of a group uses (R143). -/
def soundFor (k : Core) (g : GroupId) : Option SoundCfg :=
  match lastQueued k (fun o => match o with | .scfg h x => if h = g then some x else none | _ => none) with
  | some x => x
  | none => (k.group g).sound

/-- A zero-length range at an offset of a buffer, when it is bound. -/
def rngAt (k : Core) (buf : BitVec 8) (off : Nat) : Option Rng := (k.buffer buf.toNat).map (fun b => mkRng b off 0)

/-! ## Dispatch -/

/-- TLOAD: a reader of its record buffer and its tile-exponent table (R109). -/
def execTload (c : CoreId) (f : TloadF) (s : State) : Out :=
  dispatch c s (fun k s =>
    if f.wfmt = 7 then s.setCore c (k.fault stIllegalInstr k.pc)
    else
      let count := f.countM1.toNat + 1
      let stride := regBits k f.strideReg 16 * 32
      let len := (count - 1) * stride + recordLen f.wfmt.toNat
      let exps := if f.expBuf = 255 then none else rngAt k f.expBuf 0
      let src := (rngAt k f.srcBuf (k.reg f.offReg).toNat).getD { buf := f.srcBuf.toNat, addr := 0, len := 0 }
      let p : LoadP := { group := f.group, first := f.first.toNat, count := count, src := { src with len := len },
                         stride := stride, exps := exps, wfmt := f.wfmt.toNat, outlier := none }
      s.setCore c (k.dispatchOp (.g f.group) (f.srcBuf.toNat :: (if f.expBuf = 255 then [] else [f.expBuf.toNat])) []
        (.tload p)))

/-- PASS: its settings are those of the last FCFG, DCFG, OCFG and SCFG before it (R108). -/
def execPass (c : CoreId) (f : PassF) (s : State) : Out :=
  dispatch c s (fun k s =>
    if f.wfmt = 7 ∨ f.afmt = 3 ∨ f.init = 3 then s.setCore c (k.fault stIllegalInstr k.pc)
    else
      let p : PassP := {
        group := f.group, shape := f.shape.toNat, wfmt := f.wfmt.toNat, s8 := f.s8, afmt := f.afmt.toNat,
        init := f.init.toNat, keep := f.keep, sound := f.sound, outlier := f.outlier, m := (k.reg f.mReg).toNat,
        kb := f.kb.toNat, n := (k.reg f.nReg).toNat, feed := feedFor k f.group, drain := drainFor k f.group,
        ocfg := outlierFor k f.group, scfg := soundFor k f.group, cursor := 0,
        done := ArithCnt.zero }
      let rw := passBuffers s c p
      if (p.drain.isNone ∧ p.shape ≠ 3) ∨ (p.feed.isNone ∧ (p.shape = 3 ∨ passWorks p)) then s.setCore c (k.fault stBufUnbound k.pc)
      else if p.shape = 3 ∧ optIs false (fun x => k.writerPending k.ord x.act.buf) p.feed then
        -- the packing table is still being written: every binding may be an operand or an output (R70)
        s.setCore c (k.enqueue (.g f.group) (k.bufs.map (·.num)) (k.bufs.map (·.num)) (.pass p []))
      else s.setCore c (k.dispatchOp (.g f.group) rw.1 rw.2 (.pass p [])))

/-- FCFG. -/
def execFcfg (c : CoreId) (f : FcfgF) (s : State) : Out :=
  dispatch c s (fun k s =>
    match rngAt k f.actBuf (k.reg f.actOffReg).toNat, rngAt k f.expBuf (k.reg f.expOffReg).toNat with
    | some a, some e =>
      s.setCore c (k.enqueue (.g f.group) [] [] (.fcfg f.group { act := a, exps := e, stride := (k.reg f.strideReg).toNat }))
    | _, _ => s.setCore c (k.fault stBufUnbound k.pc))

/-- DCFG; buffer 255 as bias means none. -/
def execDcfg (c : CoreId) (f : DcfgF) (s : State) : Out :=
  dispatch c s (fun k s =>
    let bias := rngAt k f.biasBuf (k.reg f.biasOffReg).toNat
    match rngAt k f.outBuf (k.reg f.outOffReg).toNat with
    | some o =>
      if f.biasBuf ≠ 255 ∧ bias.isNone then s.setCore c (k.fault stBufUnbound k.pc)
      else s.setCore c (k.enqueue (.g f.group) [] []
        (.dcfg f.group { out := o, stride := (k.reg f.ostrideReg).toNat, bias := if f.biasBuf = 255 then none else bias }))
    | none => s.setCore c (k.fault stBufUnbound k.pc))

/-- OCFG: with off, every field but group and off is 0 (R137). -/
def execOcfg (c : CoreId) (f : OcfgF) (s : State) : Out :=
  dispatch c s (fun k s =>
    if f.off then
      if f = { group := f.group, sib := 0, pair := false, recBuf := 0, recOffReg := 0, listBuf := 0, listOffReg := 0,
               s8 := false, expBuf := 0, off := true } then
        s.setCore c (k.enqueue (.g f.group) [] [] (.ocfg f.group none))
      else s.setCore c (k.fault stIllegalInstr k.pc)
    else match rngAt k f.recBuf (k.reg f.recOffReg).toNat, rngAt k f.listBuf (k.reg f.listOffReg).toNat with
      | some r, some l =>
        let o : OutlierCfg := {
          sib := ⟨f.sib.toNat, f.sib.isLt⟩, pair := f.pair, recRng := { r with len := recordLen 6 },
          listRng := { l with len := 64 }, s8 := f.s8,
          tileExp := 0, expTable := if f.expBuf = 255 then none else (rngAt k f.expBuf 0) }
        s.setCore c (k.dispatchOp (.g f.group) ([f.recBuf.toNat, f.listBuf.toNat]
          ++ (if f.expBuf = 255 then [] else [f.expBuf.toNat])) [] (.ocfg f.group (some o)))
      | _, _ => s.setCore c (k.fault stBufUnbound k.pc))

/-- SCFG: with off, every field but group and off is 0; log2n is 4-16 (R143). -/
def execScfg (c : CoreId) (f : ScfgF) (s : State) : Out :=
  dispatch c s (fun k s =>
    if f.off then
      if f = { group := f.group, tag := 0, log2n := 0, srcBuf := 0, srcOffReg := 0, srcStrideReg := 0, srcBf16 := false,
               refReg := 0, off := true } then
        s.setCore c (k.enqueue (.g f.group) [] [] (.scfg f.group none))
      else s.setCore c (k.fault stIllegalInstr k.pc)
    else if f.log2n.toNat < 4 ∨ 16 < f.log2n.toNat then s.setCore c (k.fault stIllegalInstr k.pc)
    else match rngAt k f.srcBuf (k.reg f.srcOffReg).toNat with
      | some r =>
        s.setCore c (k.enqueue (.g f.group) [] [] (.scfg f.group (some {
          tag := f.tag, log2n := f.log2n.toNat, src := r, stride := (k.reg f.srcStrideReg).toNat, bf16 := f.srcBf16,
          ref := k.reg f.refReg })))
      | none => s.setCore c (k.fault stBufUnbound k.pc))

/-! ## Issue -/

/-- Arrays that a load fills. -/
def loadArrays (p : LoadP) : List Nat :=
  match p.outlier with
  | some o => if o.pair then [o.sib.val, o.sib.val + 1] else [o.sib.val]
  | none => (List.range p.count).map (fun i => p.first + i)

/-- The status a tile load fails with at issue, if any (Table 4.6, R109). -/
def loadFails (k : Core) (p : LoadP) : Option (BitVec 16) :=
  match k.buffer p.src.buf with
  | none => some stBufUnbound
  | some b =>
    let off := p.src.addr - b.base
    if 15 < (loadArrays p).foldl Nat.max 0 then some stPassShape
    else if off % 32 ≠ 0 then some stBufAlign
    else if !(inBounds b p.src) then some stPassBounds
    else match p.exps with
      | none => none
      | some e =>
        if (List.range p.count).any (fun i => (off + i * p.stride) % recordLen p.wfmt != 0) then some stPassFormat
        else match k.buffer e.buf with
          | none => some stBufUnbound
          | some eb =>
            if (List.range p.count).any (fun i => decide (eb.size ≤ (off + i * p.stride) / recordLen p.wfmt)) then some stPassBounds
            else none

/-- Whether a tile load may issue: the port is free and every named shadow was swapped in (R63). -/
def loadReady (k : Core) (p : LoadP) : Bool :=
  let g := k.group p.group
  g.loading.isNone && (loadArrays p).all (fun a => (g.shadow.getD a none).isNone)

/-- The load that an OCFG makes (R137). -/
def outlierLoad (g : GroupId) (o : OutlierCfg) : LoadP where
  group := g
  first := o.sib.val
  count := 1
  src := o.recRng
  stride := 0
  exps := o.expTable
  wfmt := 6
  outlier := some o

/-- Whether a pass may issue in its group: at most two in flight, no load outstanding that it would swap, no retry. -/
def passReady (k : Core) (p : PassP) : Bool :=
  decide ((passesInFlight k p.group).length < 2)
  && (!(passWorks p) || p.keep || !(groupLoading k p.group))
  && !(optIs false (fun (r : Run) => r.retrying) (k.group p.group).run)

/-- Whether a pass is due for a sounding, and the group after it counted it (R145). The low pass of a pair is not counted. -/
def countSounding (g : Group) (p : PassP) : Bool × Group :=
  match p.sound, p.scfg with
  | true, some q =>
    if p.afmt = 2 then (false, g)
    else if g.passCount + 1 ≥ 2 ^ q.log2n then (true, { g with passCount := 0 })
    else (false, { g with passCount := g.passCount + 1 })
  | _, _ => (false, g)

/-- An FP32 word from a source element: BF16 is the upper half (R35). -/
def srcElem (s : State) (c : CoreId) (q : SoundCfg) (i k : Nat) : W32 :=
  if q.bf16 then BitVec.ofNat 32 (leNat (s.csRead c (q.src.addr + i * q.stride * 32 + 2 * k) 2) * 2 ^ 16)
  else csF32 s c (q.src.addr + i * q.stride * 32 + 4 * k)

/-- The buffer of a split-precision pass's outlier list. -/
def listBuffer (p : PassP) : List Nat := match p.outlier, p.ocfg with | true, some o => [o.listRng.buf] | _, _ => []
/-- The sample of a due pass (R145, R146), or none where it is skipped (Table 5.5). -/
def takeSample (s : State) (c : CoreId) (p : PassP) (tiles : List (Option Tile)) (ctx : CtxId) (wi : W32) : Option Sample :=
  let k := s.core c
  let g := k.group p.group
  match p.scfg with
  | none => none
  | some q =>
    if k.sampler.sample.isSome ∨ k.sampler.fenced ∨ p.shape = 3 ∨ ¬ passWorks p
      ∨ k.anyPoisoned ((passBuffers s c { p with init := 0 }).1 ++ listBuffer p)
      ∨ ((usedArrays s c p ++ siblings p).filterMap (fun x => tiles.getD x none)).any (·.poisoned) then none
    else
      let w := g.window
      let rows := Nat.min 32 (p.m - 32 * w)
      some {
        group := p.group, tag := q.tag, pass := p, tiles := tiles, window := w,
        select := if p.shape = 0 then 0 else g.samples % colTiles p.n, rows := rows,
        src := (List.range rows).map (fun r => (List.range (32 * p.kb)).map (srcElem s c q (32 * w + r))),
        rowMap := (List.range 32).map (fun r => ((passOutliers s c p).find? (fun e => e.1 == r)).map (·.2)),
        ys := [], time := BitVec.ofNat 64 (coreTime s c), workItem := wi, context := ctx, captured := false }

/-- A group that skips a due sample. -/
def skipSample (k : Core) (g : GroupId) : Core :=
  { k.modGroup g (fun x => { x with skipped := x.skipped + 1 }) with sndSkipped := satAdd k.sndSkipped 1 }

/-- A pass issues: it swaps its tiles in, joins its run and may become a sample. -/
def issuePass (s : State) (c : CoreId) (e : Entry) (p : PassP) : State :=
  let k := s.core c
  match passFails s c p, k.item with
  | some st, _ => s.setCore c (k.fault st e.pc)
  | none, none => s
  | none, some item =>
    let g := k.group p.group
    let arrays := if passWorks p then usedArrays s c p ++ siblings p else []
    let swap := passWorks p && !p.keep
    let tiles := if passWorks p then passTiles g p.keep arrays else g.active
    let run := joinRun s c g p tiles e.pc
    let due := countSounding g p
    let smp := if due.1 then takeSample s c p tiles item.context item.workItem else none
    let bufs := passBuffers s c p
    let wraps := (p.m + 31) / 32
    let k := k.modGroup p.group (fun _ =>
      let x := due.2
      { x with
        active := tiles
        shadow := if swap then x.shadow.zipIdx.map (fun (t, a) => if arrays.contains a then none else t) else x.shadow
        tilesLost := if swap then false else x.tilesLost
        lastHigh := p.afmt == 1
        run := some run
        window := if due.1 ∧ smp.isSome then (x.window + 1) % (if wraps = 0 then 1 else wraps) else x.window })
    let k := match due.1, smp with
      | true, some m => { k with sampler := { k.sampler with sample := some m } }
      | true, none => skipSample k p.group
      | false, _ => k
    let k := { k with queues := k.queues.erase e, clash := k.clash ++ k.newClashes e,
                      inflight := k.inflight ++ [{ e with reads := bufs.1, writes := bufs.2, op := .pass p tiles }] }
    s.setCore c k

/-! ## Completion -/

/-- A tile read from core store at its record (R61). -/
def readTile (s : State) (c : CoreId) (p : LoadP) (i : Nat) : Tile :=
  let k := s.core c
  let addr := p.src.addr + i * p.stride
  let off := addr - optIs 0 (fun (b : Buffer) => b.base) (k.buffer p.src.buf)
  let ent := off / recordLen p.wfmt
  { addr := addr, stride := p.stride, wfmt := p.wfmt,
    s8 := match p.outlier with | some o => o.s8 | none => p.exps.isSome,
    exp := match p.exps with | some x => s.csByte c (x.addr + ent) | none => 0,
    bytes := s.csRead c addr (recordLen p.wfmt), outlier := p.outlier.isSome,
    poisoned := k.anyPoisoned (p.src.buf :: (match p.exps with | some x => [x.buf] | none => [])), stale := false }
where
  /-- A value of an optional, with a default. -/
  optIs (d : Nat) (f : Buffer → Nat) : Option Buffer → Nat
    | some b => f b
    | none => d

/-- The shadows of a group after a load. -/
def loadShadows (s : State) (c : CoreId) (p : LoadP) (g : Group) : Group :=
  let ts : List (Nat × Tile) := match p.outlier with
    | some _ => (loadArrays p).map (fun a => (a, readTile s c p 0))
    | none => (List.range p.count).map (fun i => (p.first + i, readTile s c p i))
  { g with
    loading := none
    shadow := g.shadow.zipIdx.map (fun (t, a) => match ts.find? (fun x => x.1 == a) with | some x => some x.2 | none => t)
    outlier := match p.outlier with
      | some o => some { o with tileExp := (readTile s c p 0).exp }
      | none => g.outlier }

/-- The tile load of a group ends: its shadows hold the tiles (R61). -/
def execTloadComplete (c : CoreId) (g : GroupId) (s : State) : Out :=
  .next (
    let k := s.core c
    match (k.group g).loading, k.inflight.find? (fun e => e.queue == .g g && (match e.op with | .tload _ => true | .ocfg _ _ => true | _ => false)) with
    | some p, some e =>
      if k.mode = .run ∨ k.mode = .wait then
        settle c (complete (s.modCore c (fun k => k.modGroup g (loadShadows s c p))) c e [] false false)
      else s
    | _, _ => s)

/-- Whether the operands and tile records of a run's pass are those it first read (R85). -/
def runUnchanged (s : State) (c : CoreId) (r : RunPass) : Bool :=
  operandBytes s c r.p == r.snap
  && ((usedArrays s c r.p ++ siblings r.p).filterMap (fun a => r.tiles.getD a none)).all (fun t =>
    s.csRead c t.addr t.bytes.length == t.bytes)

/-- The contribution y of a pass to the captured elements of a row (R146): its block terms, outlier terms included. -/
def sampleRow (s : State) (c : CoreId) (m : Sample) (p : PassP) (draw i : Nat) : List W32 :=
  let blocks := rowBlocks s c p i
  let orows := m.rowMap.zipIdx.filterMap (fun (k, r) => k.map (fun k => (r, k)))
  let lo := if p.shape = 0 then 0 else 32 * m.select
  let hi := if p.shape = 0 then p.n else Nat.min p.n (32 * m.select + 32)
  ((List.range hi).drop lo).map (fun n => freeSum (draw + n) (elementTerms p m.tiles orows blocks n))

/-- Captures a pass for the sample in progress; the low pass of a pair adds to the high pass's figures. -/
def capture (s : State) (c : CoreId) (p : PassP) : State :=
  match (s.core c).sampler.sample with
  | none => s
  | some m =>
    if m.group ≠ p.group ∨ p.shape = 3 then s
    else if m.captured ∧ ¬(p.afmt = 2 ∧ m.pass.afmt = 1) then s
    else
      let ys := (List.range m.rows).map (fun r => sampleRow s c m p (s.free + 512 * r) (32 * m.window + r))
      let ys := if m.captured then (m.ys.zip ys).map (fun (a, b) => (a.zip b).map (fun (x, y) => fadd x y)) else ys
      (s.modCore c (fun k => { k with sampler := { k.sampler with
        sample := some { m with ys := ys, captured := true, pass := { m.pass with afmt := m.pass.afmt } } } })).drew (512 * m.rows)

/-- A pass completes: its rows are written, its output marked complete or poisoned (R65, R78). -/
def finishPass (s : State) (c : CoreId) (e : Entry) (p : PassP) (tiles : List (Option Tile)) (clears : Bool) : State :=
  let pin := passPoisonIn s c p tiles
  let rep := passReportsPoison s c p tiles
  let s := capture s c p
  let marks := passMarks s c p
  let s := runRows s c p tiles
  let s := if rep then s.modCore c (fun k => { k with passPoison := true }) else s
  complete s c e marks pin clears

/-- Starts a run's tile from its initialiser again: the contents it was opened with, if an accumulating pass opened it. -/
def restoreStart (s : State) (c : CoreId) (r : Run) : State := r.start.foldl (fun s g => s.csWrite c g.1 g.2) s

/-- One pass of a retried run is run again (R86). When it was the last, the run's passes in flight complete and the tile's
poison mark is cleared; where an operand changed, the tile is undefined (R85). -/
def replayPass (s : State) (c : CoreId) (g : GroupId) (r : Run) (rp : RunPass) (rest : List RunPass) : State :=
  let s := if r.replay.length = r.passes.length then restoreStart s c r else s
  let ok := runUnchanged s c rp
  let p := { rp.p with cursor := 0, done := ArithCnt.zero }
  let poison := passReportsPoison s c p rp.tiles
  let s := if ok then runRows s c p rp.tiles else (writeSegs s c p).foldl (fun s x => s.csUndef c x.1 x.2) s
  let s := if poison then s.modCore c (fun k => { k with passPoison := true }) else s
  let s := s.modCore c (fun k => k.modGroup g (fun x => { x with
    run := some { r with replay := rest, retrying := !rest.isEmpty } }))
  if rest.isEmpty then
    let outs := (passBuffers s c p).2
    let bad := r.passes.any (fun q => passReportsPoison s c q.p q.tiles)
    let s := (passesInFlight (s.core c) g).foldl (fun s e => complete s c e [] false false) s
    if bad then s else s.modCore c (fun k => outs.foldl (fun k n => k.setBuf n .complete) k)
  else s

end Sys2Proof.Machine
end

