-- ==== Sys2Proof/Machine/Vector.lean ====
section
/-! DEFINITION. Vector instructions (Tables 4.7-4.9; R102, R110-R112). -/

namespace Sys2Proof.Machine

/-! ## Element types (Table 4.7) -/

/-- Whether an operation reads source a. -/
def vecReadsA (op : VecOp) : Bool := op != .fill
/-- Whether an operation reads source b. -/
def vecReadsB (op : VecOp) : Bool :=
  match op with
  | .add | .sub | .mul | .fma | .max | .min | .fill | .rot => true
  | _ => false
/-- Whether an operation reduces to one element. -/
def vecReduces (op : VecOp) : Bool := match op with | .sum | .rmax | .sumsq => true | _ => false

/-- Bytes of an element of the sources. -/
def vecSrcSize (_op : VecOp) (type : Nat) : Nat := if type = 0 then 4 else 2
/-- Bytes of an element of the destination; VCVT writes the other format. -/
def vecDstSize (op : VecOp) (type : Nat) : Nat :=
  if op = .cvt then (if type = 0 then 2 else 4) else if type = 1 then 2 else 4

/-- An element as an FP32 word: BF16 is the upper half (R35). -/
def vecElem (s : State) (c : CoreId) (size addr : Nat) : W32 :=
  let v := leNat (s.csRead c addr size)
  BitVec.ofNat 32 (if size = 2 then v * 2 ^ 16 else v)

/-- The bytes of an FP32 result in the destination's format: BF16 rounds once more (R111). -/
def vecBytes (size : Nat) (v : W32) : List Byte :=
  if size = 2 then natLe 2 (toBf16 (f32v v)).toNat else natLe 4 v.toNat

/-! ## Operations (Table 4.8) -/

/-- The FP32 result of an element-wise operation. -/
def vecValue (op : VecOp) (a b d : W32) : W32 :=
  match op with
  | .add => fadd a b
  | .sub => fsub a b
  | .mul => fmul a b
  | .fma => ffma a b d
  | .max => fmax a b
  | .min => fmin a b
  | .fill => b
  | .exp2 => fexp2 (Config.approxErr 0) a
  | .rcp => frcp (Config.approxErr 1) a
  | .rsq => frsq (Config.approxErr 2) a
  | _ => a

/-- One output of VROT, rounded once: x·y ± z·w (R111). -/
def rotValue (x y z w : W32) (minus : Bool) : W32 :=
  let p := (f32v z).mul (f32v w)
  toF32 (((f32v x).mul (f32v y)).add (if minus then p.neg else p))

/-- The result of a reduction; the tree depends only on the length (R111). -/
def vecReduce (op : VecOp) (l : List W32) : W32 :=
  match op with
  | .rmax => (match l with | [] => 0 | x :: xs => xs.foldl fmax x)
  | .sumsq => treeSum (Config.vecTree l.length) l.length (l.map (fun x => fmul x x))
  | _ => treeSum (Config.vecTree l.length) l.length l

/-! ## Dispatch -/

/-- A vector instruction goes to VEC. Type 3, a length above 20 bits, VFILL without a scalar and VCVT of type 2 are
illegal (R110, Table 4.8); with length 0 no buffer is read or written. -/
def vecDispatch (op : VecOp) (c : CoreId) (f : VecF) (s : State) : Out :=
  dispatch c s (fun k s =>
    let len := (k.reg f.lenReg).toNat
    if f.type = 3 ∨ 2 ^ 20 ≤ len ∨ (op = .fill ∧ f.bs = false) ∨ (op = .cvt ∧ f.type = 2) then
      s.setCore c (k.fault stIllegalInstr k.pc)
    else
      let ty := f.type.toNat
      let rng (buf : BitVec 8) (reg : BitVec 5) (n : Nat) : Rng :=
        { (rngAt k buf (k.reg reg).toNat).getD { buf := buf.toNat, addr := 0, len := 0 } with len := n }
      let useB := vecReadsB op && !f.bs
      let p : VecP := {
        op := op, type := ty, bs := f.bs, scalar := (k.reg f.bReg).setWidth 32, len := len,
        dst := rng f.dBuf f.dReg (vecDstSize op ty * (if vecReduces op then 1 else len)),
        a := if vecReadsA op then some (rng f.aBuf f.aReg (vecSrcSize op ty * len)) else none,
        b := if useB then some (rng f.bBuf f.bReg (vecSrcSize op ty * len)) else none, cursor := 0 }
      if len = 0 then s.setCore c (k.enqueue .vec [] [] (.vec p))
      else
        s.setCore c (k.dispatchOp .vec
          ((if vecReadsA op then [f.aBuf.toNat] else []) ++ (if useB then [f.bBuf.toNat] else [])
            ++ (if op = .fma then [f.dBuf.toNat] else []))
          [f.dBuf.toNat] (.vec p)))

def execVadd (c : CoreId) (f : VecF) (s : State) : Out := vecDispatch .add c f s
def execVsub (c : CoreId) (f : VecF) (s : State) : Out := vecDispatch .sub c f s
def execVmul (c : CoreId) (f : VecF) (s : State) : Out := vecDispatch .mul c f s
def execVfma (c : CoreId) (f : VecF) (s : State) : Out := vecDispatch .fma c f s
def execVmax (c : CoreId) (f : VecF) (s : State) : Out := vecDispatch .max c f s
def execVmin (c : CoreId) (f : VecF) (s : State) : Out := vecDispatch .min c f s
def execVcopy (c : CoreId) (f : VecF) (s : State) : Out := vecDispatch .copy c f s
def execVfill (c : CoreId) (f : VecF) (s : State) : Out := vecDispatch .fill c f s
def execVexp2 (c : CoreId) (f : VecF) (s : State) : Out := vecDispatch .exp2 c f s
def execVrcp (c : CoreId) (f : VecF) (s : State) : Out := vecDispatch .rcp c f s
def execVrsq (c : CoreId) (f : VecF) (s : State) : Out := vecDispatch .rsq c f s
def execVcvt (c : CoreId) (f : VecF) (s : State) : Out := vecDispatch .cvt c f s
def execVsum (c : CoreId) (f : VecF) (s : State) : Out := vecDispatch .sum c f s
def execVrmax (c : CoreId) (f : VecF) (s : State) : Out := vecDispatch .rmax c f s
def execVsumsq (c : CoreId) (f : VecF) (s : State) : Out := vecDispatch .sumsq c f s
def execVrot (c : CoreId) (f : VecF) (s : State) : Out := vecDispatch .rot c f s

/-! ## Issue -/

/-- Whether two ranges are neither identical nor disjoint (R102). -/
def partOverlap (a b : Rng) : Bool := a.meets b && !(a.addr == b.addr && a.len == b.len)

/-- The status a range fails with: misaligned, beyond its buffer, or a write to a read-only one. -/
def rngFails (k : Core) (r : Rng) (size : Nat) (write : Bool) : Option (BitVec 16) :=
  match k.buffer r.buf with
  | none => some stBufUnbound
  | some b =>
    if (r.addr - b.base) % size ≠ 0 then some stBufAlign
    else if !(inBounds b r) then some stBufBounds
    else if write && b.readOnly then some stBufReadonly
    else none

/-- The first failure of a list of checks. -/
def firstFail : List (Option (BitVec 16)) → Option (BitVec 16)
  | [] => none
  | some x :: _ => some x
  | none :: t => firstFail t

/-- The status a vector instruction fails with at issue, if any. -/
def vecFails (k : Core) (p : VecP) : Option (BitVec 16) :=
  if p.len = 0 then none
  else if p.op = .rot ∧ p.len % 2 = 1 then some stBufAlign
  else
    let srcs := p.a.toList ++ p.b.toList
    firstFail (srcs.map (fun r => rngFails k r (vecSrcSize p.op p.type) false)
      ++ [rngFails k p.dst (vecDstSize p.op p.type) true]
      ++ [if srcs.any (partOverlap p.dst) then some stBufAlias else none])

/-! ## Completion -/

/-- The values an instruction writes from element `a` up to element `b`. -/
def vecResults (s : State) (c : CoreId) (p : VecP) (a b : Nat) : List W32 :=
  let ss := vecSrcSize p.op p.type
  let ds := vecDstSize p.op p.type
  let srcA (i : Nat) : W32 := match p.a with | some r => vecElem s c ss (r.addr + ss * i) | none => 0
  let srcB (i : Nat) : W32 := match p.b with | some r => vecElem s c ss (r.addr + ss * i) | none => p.scalar
  if vecReduces p.op then [vecReduce p.op ((List.range p.len).map srcA)]
  else ((List.range b).drop a).map (fun i =>
    if p.op = .rot then
      if i % 2 = 0 then rotValue (srcA i) (srcB i) (srcA (i + 1)) (srcB (i + 1)) true
      else rotValue (srcA (i - 1)) (srcB i) (srcA i) (srcB (i - 1)) false
    else vecValue p.op (srcA i) (srcB i) (vecElem s c ds (p.dst.addr + ds * i)))

/-- The bytes written: a copy in one format keeps its bits. -/
def vecOut (p : VecP) (v : W32) : List Byte :=
  let ds := vecDstSize p.op p.type
  if p.op = .copy ∧ ds = 2 then natLe 2 (v.toNat / 2 ^ 16) else vecBytes ds v

/-- Writes elements [a, b) of a vector instruction. -/
def vecWrite (s : State) (c : CoreId) (p : VecP) (a b : Nat) : State :=
  let ds := vecDstSize p.op p.type
  s.csWrite c (p.dst.addr + (if vecReduces p.op then 0 else ds * a)) ((vecResults s c p a b).flatMap (vecOut p))

/-- A vector instruction completes: it writes its destination and marks it (R100, R111). -/
def finishVec (s : State) (c : CoreId) (e : Entry) (p : VecP) : State :=
  if p.len = 0 then complete s c e [] false false
  else
    let pin := (s.core c).anyPoisoned e.reads
    complete (vecWrite s c p p.cursor p.len) c e [p.dst] pin true

/-- VECTOR_COMPLETE: the oldest vector instruction in flight. -/
def execVectorComplete (c : CoreId) (s : State) : Out :=
  .next (
    let k := s.core c
    match k.inflight.find? (fun e => e.queue == .vec) with
    | some e =>
      (match e.op with
        | .vec p => if k.mode = .run ∨ k.mode = .wait then settle c (finishVec s c e p) else s
        | _ => s)
    | none => s)

end Sys2Proof.Machine
end

