-- ==== Sys2Proof/Machine/Move.lean ====
section
/-! DEFINITION. Move instructions (R113-R117): dispatch, the checks at issue, completion. -/

namespace Sys2Proof.Machine

/-! ## Dispatch -/

/-- Whether the fields of a move hold reserved codes: unlisted formats (R114), and a scale register where neither format is
FP8 (Table 4.10). -/
def moveReserved (sfmt dfmt : BitVec 5) (aux : BitVec 5) : Bool :=
  !(fmtListed sfmt.toNat) || !(fmtListed dfmt.toNat) || (aux != 0 && !(isFp8 sfmt.toNat) && !(isFp8 dfmt.toNat))

/-- Dispatch of MLOAD and MSTORE. A move of length 0 reads and writes no buffer (R115). -/
def moveDispatch (op : MoveOp) (c : CoreId) (f : MoveF) (s : State) : Out :=
  dispatch c s (fun k s =>
    if moveReserved f.sfmt f.dfmt f.auxReg ∨ 2 ≤ f.tclass.toNat then s.setCore c (k.fault stIllegalInstr k.pc)
    else
      let len := (k.reg f.lenReg).toNat
      let size := if op = .load then fmtSize f.dfmt.toNat f.s8 len else fmtSize f.sfmt.toNat f.s8 len
      let r := (rngAt k f.buf (k.reg f.offReg).toNat).getD { buf := f.buf.toNat, addr := 0, len := 0 }
      let p : MoveP := {
        op := op, store := { r with len := size }, other := none, remote := k.reg f.addrReg, len := len,
        sfmt := f.sfmt.toNat, dfmt := f.dfmt.toNat, sr := f.sr, aux := (k.reg f.auxReg).setWidth 32, s8 := f.s8,
        background := f.tclass.toNat == 1, cursor := 0 }
      if len = 0 then s.setCore c (k.enqueue .mov [] [] (.move p))
      else s.setCore c (k.dispatchOp .mov (if op = .load then [] else [f.buf.toNat])
        (if op = .load then [f.buf.toNat] else []) (.move p)))

/-- MLOAD. -/
def execMload (c : CoreId) (f : MoveF) (s : State) : Out := moveDispatch .load c f s
/-- MSTORE. -/
def execMstore (c : CoreId) (f : MoveF) (s : State) : Out := moveDispatch .store c f s
/-- MCOPY: the destination is the store range, the source the other. -/
def execMcopy (c : CoreId) (f : McopyF) (s : State) : Out :=
  dispatch c s (fun k s =>
    if moveReserved f.sfmt f.dfmt f.auxReg then s.setCore c (k.fault stIllegalInstr k.pc)
    else
      let len := (k.reg f.lenReg).toNat
      let dst := (rngAt k f.dBuf (k.reg f.dReg).toNat).getD { buf := f.dBuf.toNat, addr := 0, len := 0 }
      let src := (rngAt k f.sBuf (k.reg f.sReg).toNat).getD { buf := f.sBuf.toNat, addr := 0, len := 0 }
      let p : MoveP := {
        op := .copy, store := { dst with len := fmtSize f.dfmt.toNat f.s8 len },
        other := some { src with len := fmtSize f.sfmt.toNat f.s8 len }, remote := 0, len := len,
        sfmt := f.sfmt.toNat, dfmt := f.dfmt.toNat, sr := f.sr, aux := (k.reg f.auxReg).setWidth 32, s8 := f.s8,
        background := false, cursor := 0 }
      if len = 0 then s.setCore c (k.enqueue .mov [] [] (.move p))
      else s.setCore c (k.dispatchOp .mov [f.sBuf.toNat] [f.dBuf.toNat] (.move p)))

/-! ## Issue -/

/-- Bytes of a move at its remote end. -/
def MoveP.remoteLen (p : MoveP) : Nat :=
  if p.op = .load then fmtSize p.sfmt p.s8 p.len else fmtSize p.dfmt p.s8 p.len

/-- The status of a remote range that a move of a partition may not name (R113, R220). -/
def moveAddrFails (s : State) (c : CoreId) (part : PartId) (p : MoveP) : Option (BitVec 16) :=
  match remoteParts p.remote with
  | none => some stMoveAddr
  | some (v, a) => s.accessFails part c v a p.remoteLen (p.op == .store)

/-- The status a move fails with at issue, if any (R114, R115, R102, R220). -/
def moveFails (s : State) (c : CoreId) (part : PartId) (p : MoveP) : Option (BitVec 16) :=
  let k := s.core c
  if !(convLegal p.sfmt p.dfmt) then some stFmtUnsupported
  else if p.len % (if p.sfmt = 0 then 32 else convUnit p.sfmt p.dfmt) ≠ 0 then some stBufAlign
  else if p.len = 0 then none
  else if p.op ≠ .copy ∧ p.remote.toNat % 32 ≠ 0 then some stBufAlign
  else firstFail [
    (match p.other with | some r => rngFails k r 1 false | none => none),
    rngFails k p.store 1 (p.op != .store),
    (match p.other with | some r => if partOverlap p.store r then some stBufAlias else none | none => none),
    (if p.op = .copy then none else moveAddrFails s c part p)]

/-- The 4 KiB lines of a move's remote range: view and first and last line. -/
def MoveP.lines (p : MoveP) : Option (Nat × Nat × Nat) :=
  if p.op = .copy ∨ p.len = 0 then none
  else (remoteParts p.remote).map (fun x => (x.1, x.2 / 4096, (x.2 + p.remoteLen - 1) / 4096))
/-- Whether two moves share a 4 KiB line and one of them writes (R117). -/
def movesMeet (a b : MoveP) : Bool :=
  match a.lines, b.lines with
  | some x, some y => x.1 == y.1 && decide (x.2.1 ≤ y.2.2) && decide (y.2.1 ≤ x.2.2) && (a.op == .store || b.op == .store)
  | _, _ => false
/-- The move an entry holds. -/
def Entry.move? (e : Entry) : Option MoveP := match e.op with | .move p => some p | _ => none
/-- Whether a move may issue: at most 8 in flight, no earlier one in flight on its lines. -/
def moveReady (k : Core) (p : MoveP) : Bool :=
  let fl := k.inflight.filterMap Entry.move?
  decide (fl.length < 8) && !(fl.any (fun q => movesMeet q p))

/-! ## Completion -/

/-- Adds data time to a slice's weir charges: partition (16 the system weir), 4 × class (0 protected, 1 foreground,
2 background) + channel, picoseconds (R170, R171). -/
def State.charge (s : State) (c : CoreId) (part cls ps : Nat) : State :=
  s.modSlice c (fun k => { k with weirUse := smBump k.weirUse part cls ps })
where
  /-- One charge added to a list of charges. -/
  smBump : List (Nat × Nat × Nat) → Nat → Nat → Nat → List (Nat × Nat × Nat)
    | [], p, q, n => [(p, q, n)]
    | (a, b, m) :: t, p, q, n => if a = p ∧ b = q then (a, b, m + n) :: t else (a, b, m) :: smBump t p q n
/-- Charges a range of a view, 0.5 ns for each block, at the slices that hold it. -/
def State.chargeRange (s : State) (c : CoreId) (view a n part cls : Nat) : State :=
  (blocksOf a n).foldl (fun s b => match s.target c view b with | some (.block t x) => s.charge t part (4 * cls + x.ch.val) 500 | _ => s) s

/-- Counts the saturations and infinities of a conversion (R134). -/
def Core.countConv (k : Core) (v : Conv) : Core := { k with satMov := satAdd k.satMov v.sats, infMov := satAdd k.infMov v.infs }
/-- The conversion a move makes of its source bytes, with fresh draws from a number on. -/
def MoveP.conv (p : MoveP) (draw : Nat) (src : List Byte) : Conv :=
  convert p.sfmt p.dfmt p.s8 p.sr p.aux (fun i => Config.draw (draw + i)) p.len src
/-- The part of a raw move that is still to be done: its cursor's bytes are in place. -/
def MoveP.rest (p : MoveP) (bs : List Byte) : List Byte := bs.drop p.cursor

/-- Writes the result of a move into core store, from its cursor on. -/
def moveInto (s : State) (c : CoreId) (p : MoveP) (src : List Byte) : State :=
  let v := p.conv s.free src
  ((s.csWrite c (p.store.addr + p.cursor) (p.rest v.out)).modCore c (fun k => k.countConv v)).drew p.len

/-- Where a device returned poison for a far range: its record and, by the region's type, its recovery (R231). -/
def farPoisoned (s : State) (c : CoreId) (a n : Nat) : State :=
  match s.farTarget a with
  | none => s
  | some (p, off) =>
    let r := s.regions.find? (fun r => r.holds c 2 a n)
    let id := match r with | some r => r.id.toNat | none => 0
    let s := s.log memFarPoison (srcIo p.val) (locRemote 2 a) 0 (r.map (fun r => (r.ctx, r.part)))
      [BitVec.ofNat 64 p.val, BitVec.ofNat 64 off, BitVec.ofNat 64 id]
    match r with | some r => s.regionLoses r (r.lineOf c a) | none => s

/-- A move completes: it writes its destination and marks it complete or poisoned (R100, R101, R117). -/
def finishMove (s : State) (c : CoreId) (part : PartId) (e : Entry) (p : MoveP) (farPoison : Bool) : State :=
  if p.len = 0 then complete s c e [] false false
  else
    let pin := (s.core c).anyPoisoned e.reads
    let cls := if p.background then 2 else 1
    match p.op, p.other, remoteParts p.remote with
    | .copy, some o, _ => complete (moveInto s c p (s.csRead c o.addr o.len)) c e [p.store] pin true
    | .load, _, some (v, a) =>
      let fp := farPoison && v == 2
      let s := if fp then farPoisoned s c a p.remoteLen else s
      let r := (s.chargeRange c v a p.remoteLen part.val cls).viewRead c v a p.remoteLen
      complete (moveInto r.1 c p r.2.1) c e [p.store] (pin || r.2.2 || fp) true
    | .store, _, some (v, a) =>
      let cv := p.conv s.free (s.csRead c p.store.addr p.store.len)
      let s := (s.modCore c (fun k => k.countConv cv)).drew p.len
      let s := (s.chargeRange c v a p.remoteLen part.val cls).viewWrite c v (a + p.cursor) (p.rest cv.out) pin
      let s := if pin then s.modCore c (fun k => { k with poisonSeen := true }) else s
      complete s c e [] false false
    | _, _, _ => complete s c e [] false false

/-- Whether a channel or a map change holds a move's accesses. -/
def moveHeld (s : State) (c : CoreId) (p : MoveP) : Bool :=
  match remoteParts p.remote with
  | some (v, a) => p.op != .copy && s.rangeHeld c v a p.remoteLen
  | none => false

/-- MOVE_COMPLETE: the move at a place among those in flight ends, unless a channel or a map change holds its accesses (R26). -/
def execMoveComplete (c : CoreId) (idx : Fin 8) (farPoison : Bool) (s : State) : Out :=
  .next (
    let k := s.core c
    match (k.inflight.filter (fun e => e.queue == .mov))[idx.val]?, k.item with
    | some e, some i =>
      (match e.op with
        | .move p =>
          if (k.mode = .run ∨ k.mode = .wait) ∧ moveHeld s c p = false then settle c (finishMove s c i.partition e p farPoison) else s
        | _ => s)
    | _, _ => s)

end Sys2Proof.Machine
end

