-- ==== Sys2Proof/Machine/Sync.lean ====
section
/-! DEFINITION. Synchronisation, waits and the near-bank port's dispatch (R118-R125, R408, R409). -/

namespace Sys2Proof.Machine

/-! ## Semaphores (R120) -/

/-- The status an instruction that names a semaphore fails with: beyond the partition's ranges, or in a fenced tower's base
die (R318). -/
def semFails (s : State) (p : PartId) (v : W64) : Option (BitVec 16) :=
  let n := v.toNat
  let q := s.part p
  if 2 ^ 15 ≤ n ∨ n % 4096 < q.semFirst ∨ q.semFirst + q.semCount ≤ n % 4096 then some stSemRange
  else if s.fencedTowers.contains (n / 4096) then some stSemFenced
  else none

/-- The partition of the running work item. -/
def Core.partOf (k : Core) : PartId := match k.item with | some i => i.partition | none => 0

/-- SEMADD goes to SYN; it names no buffer. -/
def execSemadd (c : CoreId) (semReg valReg : BitVec 5) (s : State) : Out :=
  dispatch c s (fun k s =>
    match semFails s k.partOf (k.reg semReg) with
    | some st => s.setCore c (k.fault st k.pc)
    | none => s.setCore c (k.enqueue .syn [] [] (.semadd (k.reg semReg).toNat ((k.reg valReg).setWidth 32))))

/-- SEMWAIT's condition: the semaphore is at least the value, as signed 32-bit values. -/
def semReady (s : State) (n : Nat) (v : W32) : Bool := v.sle (s.sem n)
/-- A SEMWAIT whose condition holds: with consume the value is subtracted in the same step (R121). -/
def semTake (s : State) (c : CoreId) (n : Nat) (v : W32) (consume : Bool) : State :=
  let s := if consume then s.setSem n (s.sem n - v) else s
  s.modCore c (fun k => { k with wait := .none }.advance)

/-- SEMWAIT. -/
def execSemwait (c : CoreId) (semReg valReg : BitVec 5) (consume : Bool) (s : State) : Out :=
  dispatch c s (fun k s =>
    let n := (k.reg semReg).toNat
    let v := (k.reg valReg).setWidth 32
    match semFails s k.partOf (k.reg semReg) with
    | some st => s.setCore c (k.fault st k.pc)
    | none =>
      if semReady s n v then semTake s c n v consume
      else s.setCore c { k with wait := .semwait n v consume, waitSince := s.now })

/-- SEMWAIT_SATISFIED: the condition of a waiting SEMWAIT has come true. -/
def execSemwaitSatisfied (c : CoreId) (s : State) : Out :=
  .next (
    let k := s.core c
    match k.wait with
    | .semwait n v consume =>
      if semReady s n v ∧ k.paused = false ∧ k.mode = .run then settle c (semTake s c n v consume) else s
    | _ => s)

/-- SEMRD. -/
def execSemrd (c : CoreId) (d semReg : BitVec 5) (s : State) : Out :=
  dispatch c s (fun k s =>
    match semFails s k.partOf (k.reg semReg) with
    | some st => s.setCore c (k.fault st k.pc)
    | none => s.setCore c (k.setReg d ((s.sem (k.reg semReg).toNat).signExtend 64)).advance)

/-! ## Fences, buffers, flags, counters (R121) -/

/-- FENCE. -/
def execFence (c : CoreId) (mask : BitVec 13) (s : State) : Out :=
  dispatch c s (fun k s => s.setCore c { k with wait := .fence mask })

/-- BUFSTATE takes effect when earlier readers and writers of the buffer are done; states 2 and 3 are illegal. -/
def execBufstate (c : CoreId) (buf : BitVec 8) (st : BitVec 2) (s : State) : Out :=
  dispatch c s (fun k s =>
    if 2 ≤ st.toNat then s.setCore c (k.fault stIllegalInstr k.pc)
    else if (k.buffer buf.toNat).isNone then s.setCore c (k.fault stBufUnbound k.pc)
    else s.setCore c (k.enqueue .syn [buf.toNat] [buf.toNat]
      (.bufstate buf.toNat (if st = 0 then .empty else .complete))))

/-- FLAGSET. -/
def execFlagset (c : CoreId) (maskReg : BitVec 5) (s : State) : Out :=
  dispatch c s (fun k s => s.setCore c { k with flags := k.flags ||| (k.reg maskReg).setWidth 32 }.advance)
/-- FLAGCLR. -/
def execFlagclr (c : CoreId) (maskReg : BitVec 5) (s : State) : Out :=
  dispatch c s (fun k s => s.setCore c { k with flags := k.flags &&& ~~~((k.reg maskReg).setWidth 32) }.advance)
/-- FLAGWAIT. -/
def execFlagwait (c : CoreId) (maskReg : BitVec 5) (all : Bool) (s : State) : Out :=
  dispatch c s (fun k s =>
    s.setCore c { k with wait := .flagwait ((k.reg maskReg).setWidth 32) all, waitSince := s.now })
/-- CNTADD. -/
def execCntadd (c : CoreId) (cnt : Fin 16) (valReg : BitVec 5) (mask : BitVec 13) (s : State) : Out :=
  dispatch c s (fun k s => s.setCore c (k.enqueue .syn [] [] (.cntadd cnt ((k.reg valReg).setWidth 32) mask)))
/-- CNTWAIT. -/
def execCntwait (c : CoreId) (cnt : Fin 16) (valReg : BitVec 5) (s : State) : Out :=
  dispatch c s (fun k s => s.setCore c { k with wait := .cntwait cnt ((k.reg valReg).setWidth 32) })

/-! ## WAIT (R125, R408, R409) -/

/-- WAIT: events 3-7 are illegal; a semaphore that the partition may not name fails. -/
def execWait (c : CoreId) (event : BitVec 3) (a b : BitVec 5) (s : State) : Out :=
  dispatch c s (fun k s =>
    if 3 ≤ event.toNat then s.setCore c (k.fault stIllegalInstr k.pc)
    else match (if event = 1 then semFails s k.partOf (k.reg a) else none) with
      | some st => s.setCore c (k.fault st k.pc)
      | none => s.setCore c { k with wait := .drainWait event.toNat (k.reg a) (k.reg b) })

/-- Cycles that a core's island has counted since a WAIT began. -/
def waitedCycles (s : State) (k : Core) (c : CoreId) : Nat :=
  coreTime s c - k.waitTick
/-- Whether the event of a WAIT has occurred. -/
def waitMet (s : State) (k : Core) (c : CoreId) (ev : Nat) (a b : W64) : Bool :=
  match ev with
  | 0 => k.flags &&& a.setWidth 32 != 0
  | 1 => semReady s a.toNat (b.setWidth 32)
  | _ => decide (a.toNat ≤ waitedCycles s k c)
/-- WAIT_EVENT: the event occurred and the core's clock runs; a core in retention wakes by CORE_WAKE first (R409). -/
def execWaitEvent (c : CoreId) (s : State) : Out :=
  .next (
    let k := s.core c
    match k.wait with
    | .waiting ev a b =>
      if waitMet s k c ev a b ∧ k.paused = false ∧ k.mode ≠ .retention ∧ k.mode ≠ .off then
        s.setCore c { k with wait := .none, mode := .run, modeSince := s.now }.advance
      else s
    | _ => s)

/-- Whether a wait has lasted CSR_WAIT_LIMIT; 0 is no limit, and a WAIT on cycles has none (R123, R125, Table 4.5). -/
def waitExpired (s : State) (k : Core) : Bool :=
  k.waitLimit != 0 && decide (k.waitSince + k.waitLimit.toNat * 1000 ≤ s.now) &&
    match k.wait with
    | .semwait _ _ _ => true
    | .flagwait _ _ => true
    | .waiting ev _ _ => ev != 2
    | _ => false
/-- WAIT_LIMIT_EXPIRY. -/
def execWaitLimitExpiry (c : CoreId) (s : State) : Out :=
  .next (
    let k := s.core c
    if waitExpired s k ∧ k.mode ≠ .retention ∧ k.mode ≠ .off then
      s.setCore c { k.fault stWaitTimeout k.pc with mode := .run }
    else s)

/-! ## Near-bank port (R118, R119) -/

/-- Whether a launch's or poll's target is no core of the partition. -/
def nbTargetBad (s : State) (p : PartId) (v : W64) : Bool := !(decide (v.toNat < 512) && (s.part p).cores.contains v.toNat)

/-- NBLAUNCH: a writer of its status buffer. -/
def execNblaunch (c : CoreId) (f : NbLaunchF) (s : State) : Out :=
  dispatch c s (fun k s =>
    match k.item with
    | none => s
    | some i =>
      if 2 ≤ f.tclass.toNat then s.setCore c (k.fault stIllegalInstr k.pc)
      else
        let st := (rngAt k f.stBuf 0).getD { buf := f.stBuf.toNat, addr := 0, len := 0 }
        let tgt := k.reg f.tgtReg
        s.setCore c (k.dispatchOp .nb [] [f.stBuf.toNat] (.nblaunch {
          core := c, tgt := tgt, target := Fin.ofNat 512 tgt.toNat, st := { st with len := 512 }, mask := k.reg f.maskReg,
          prog := k.reg f.progReg, arg := k.reg f.argReg, classB := f.classB, fixed := f.fixed,
          background := f.tclass.toNat == 1, ctx := i.context, part := i.partition, workItem := i.workItem })))

/-- NBPOLL: the live status word as the slice controller last read it (R248). -/
def execNbpoll (c : CoreId) (d tgtReg : BitVec 5) (unit : UnitId) (s : State) : Out :=
  dispatch c s (fun k s =>
    let t := k.reg tgtReg
    if nbTargetBad s k.partOf t then s.setCore c (k.fault stNbTarget k.pc)
    else s.setCore c (k.setReg d ((smGet (s.slice (Fin.ofNat 512 t.toNat)).liveWords unit.val).getD 0)).advance)

/-- NBFLUSH. -/
def execNbflush (c : CoreId) (addrReg lenReg : BitVec 5) (s : State) : Out :=
  dispatch c s (fun k s => s.setCore c (k.enqueue .nb [] [] (.nbflush (k.reg addrReg) (k.reg lenReg))))

/-- NBINV: it waits for earlier readers, as a writer of the buffer. -/
def execNbinv (c : CoreId) (buf : BitVec 8) (s : State) : Out :=
  dispatch c s (fun k s => s.setCore c (k.dispatchOp .nb [] [buf.toNat] (.nbinv buf.toNat)))

/-! ## Effects at issue -/

/-- A buffer's mark set by NBINV or BUFSTATE: a later writer that has already completed stands (R99). -/
def Core.markSet (k : Core) (ord buf : Nat) (st : BufState) : Core :=
  let mark (b : Buffer) : Buffer := if ord < b.written then b else { b with st := st, set := Nat.max b.set (ord + 1) }
  { k with bufs := updWhere (fun b => b.num == buf) mark k.bufs }

/-- Whether a block of a core's view lies in a byte range of a view. -/
def inFlush (s : State) (c t : CoreId) (view lo n : Nat) (e : EddyEntry) : Bool :=
  match s.blockView t (idxCoord e.blk) with
  | some (v, o) => v == view && (v != 0 || t == c) && decide (lo < o + 32) && decide (o < lo + n)
  | none => false
/-- Eddy entries that a flush of a range covers: slice, channel, entry. -/
def flushList (s : State) (c : CoreId) (view lo n : Nat) : List (CoreId × ChanId × EddyEntry) :=
  s.slices.flatMap (fun x =>
    let t : CoreId := Fin.ofNat 512 x.1
    [(0 : ChanId), 1, 2, 3].flatMap (fun ch =>
      ((s.chan t ch).eddy.filter (inFlush s c t view lo n)).map (fun e => (t, ch, e))))

end Sys2Proof.Machine
end

