-- ==== Sys2Proof/Machine/Stops.lean ====
section
/-! DEFINITION. Stops of a core's work: pass records, pre-emption, thermal aborts, array faults and fences (R79-R92, R133, R150). -/

namespace Sys2Proof.Machine

/-! ## Pass records (Tables 3.9, 5.6) -/

/-- A bit as a number. -/
def bn (p : Bool) : Nat := if p then 1 else 0
/-- Address of A0's record, record stride in 32 B, and the tile exponents, of the tiles of a register set. -/
def tileWords (ts : List (Option Tile)) : Nat × Nat × Nat × Nat :=
  let own := ts.zipIdx.filterMap (fun (t, a) => match t with | some t => if t.outlier then none else some (t, a) | none => none)
  let ex (lo : Nat) := (List.range 8).foldl (fun acc a =>
    acc + (match ts.getD (lo + a) none with | some t => if t.s8 then t.exp.toNat else 0 | none => 0) * 2 ^ (8 * a)) 0
  match own with
  | (t, a) :: _ => (t.addr - a * t.stride, t.stride / 32, ex 0, ex 8)
  | [] => (0, 0, 0, 0)
/-- The syndrome word of R509. -/
def syndromeWord (y : Syndrome) : Nat :=
  y.check.toNat * 2 ^ 28 + y.pgroup.val * 2 ^ 25
  + (if y.check = 1 ∨ y.check = 2 then y.array.val * 2 ^ 21 + y.line.val * 2 ^ 16 else 0)
  + (if y.check = 1 then y.plane.val * 2 ^ 13 else 0)

/-- What a pass record names beside the group's own state. -/
structure RecordP where
  state : Nat
  pass : Option PassP
  syndrome : Nat
  deriving DecidableEq, Repr

/-- Words Q0-Q15 of a group's pass record. -/
def passWordsLow (s : State) (c : CoreId) (g : GroupId) (r : RecordP) (seq : W32) : List Nat :=
  let k := s.core c
  let x := k.group g
  let act := tileWords x.active
  let shd := match x.loading with
    | some l => (l.src.addr - l.first * l.stride, l.stride / 32, 0, 0)
    | none => tileWords x.shadow
  let held := x.active.any Option.isSome
  let issued := x.loading.isSome || x.shadow.any Option.isSome
  let first := ((x.active ++ x.shadow).filterMap id).find? (fun t => !t.outlier)
  let p := r.pass
  let on (f : PassP → Nat) : Nat := match p with | some p => f p | none => 0
  let wf := match p, first with | some p, _ => p.wfmt | none, some t => t.wfmt | none, none => 0
  let s8 := match p, first with | some p, _ => bn p.s8 | none, some t => bn t.s8 | none, none => 0
  let retries := match p, x.run with | some _, some q => Nat.min q.retries 1 | _, _ => 0
  let feed (f : FeedCfg → Nat) := on (fun p => match p.feed with | some q => f q | none => 0)
  let drain (f : DrainCfg → Nat) := on (fun p => match p.drain with | some q => f q | none => 0)
  let run (f : Run → Nat) := match p, x.run with | some _, some q => f q | _, _ => 0
  let wi := match k.item with | some i => i.workItem.toNat | none => 0
  let full := r.state != 0
  [ (if full then x.fence.toNat else 0) * 2 ^ 48 + retries * 2 ^ 38 + on (fun p => bn p.keep) * 2 ^ 37 + s8 * 2 ^ 36
      + on (·.init) * 2 ^ 34 + on (·.afmt) * 2 ^ 32 + wf * 2 ^ 28 + on (·.shape) * 2 ^ 24
      + (if full then g.val else 0) * 2 ^ 16 + r.state * 2 ^ 8 + 1,
    on (·.n) * 2 ^ 48 + on (fun p => if p.shape = 3 then (packTable s c p).foldl (fun acc e => acc + e.count) 0 else 0) * 2 ^ 38
      + on (·.kb) * 2 ^ 32 + on (·.cursor) * 2 ^ 16 + on (·.m),
    feed (·.stride) * 2 ^ 48 + feed (fun f => f.exps.addr) * 2 ^ 24 + feed (fun f => f.act.addr),
    drain (fun d => match d.bias, on (·.init) with | some b, 1 => b.addr | _, _ => 0) * 2 ^ 40 + drain (·.stride) * 2 ^ 24
      + drain (fun d => d.out.addr),
    act.2.1 * 2 ^ 24 + act.1,
    bn issued * 2 ^ 63 + bn (issued && x.loading.isNone) * 2 ^ 62 + bn held * 2 ^ 61 + shd.2.1 * 2 ^ 24 + shd.1,
    act.2.2.1, act.2.2.2, shd.2.2.1, shd.2.2.2,
    run (·.runPc) * 2 ^ 16 + run (fun q => q.passes.length - (passesInFlight k g).length),
    on (fun p => p.done.inf.toNat) * 2 ^ 32 + on (fun p => p.done.nan.toNat),
    on (fun p => p.done.nancode.toNat) * 2 ^ 32 + on (fun p => p.done.subn.toNat),
    if full then coreTime s c else 0,
    if full then seq.toNat * 2 ^ 32 + wi else 0,
    r.syndrome ]

/-- Words Q16-Q23: the sampler state and the outlier configuration of a group. -/
def passWordsHigh (x : Group) : List Nat :=
  let snd := match x.sound with
    | some q => [q.tag.toNat * 2 ^ 52 + q.log2n * 2 ^ 47 + 2 ^ 46 + bn q.bf16 * 2 ^ 45 + q.src.buf * 2 ^ 37 + x.passCount,
        q.ref.toNat, q.stride * 2 ^ 48 + q.src.addr]
    | none => [x.passCount, 0, 0]
  let out := match x.outlier with
    | some o => [2 ^ 63 + bn o.pair * 2 ^ 62 + bn o.s8 * 2 ^ 61 + o.sib.val * 2 ^ 57 + o.recRng.addr, o.listRng.addr, o.tileExp.toNat]
    | none => [0, 0, 0]
  snd ++ [x.samples * 2 ^ 32 + x.skipped, x.window] ++ out

/-- Writes the pass record of a group at 0x003F_E000 + g × 0x0400 (R80), 128 words; a record of its source is numbered. -/
def putPassRecord (s : State) (c : CoreId) (g : GroupId) (r : RecordP) : State :=
  let b := s.err.srcBuf (srcCore c)
  let ws := passWordsLow s c g r b.seq ++ passWordsHigh ((s.core c).group g)
  let ws := ws ++ List.replicate (128 - ws.length) 0
  let s := if r.state = 0 then s else { s with err := s.err.setSrcBuf { b with seq := b.seq + 1 } }
  s.csWrite c (0x3FE000 + g.val * 0x400) (ws.flatMap (fun w => natLe 8 (w % 2 ^ 64)))

/-! ## Stopping passes, vector and move instructions (R79, R133) -/

/-- All groups. -/
def allGroups : List GroupId := [0, 1, 2, 3, 4, 5, 6, 7]
/-- An entry of the core's in-flight list replaced. -/
def Core.swapEntry (k : Core) (e : Entry) : Core :=
  { k with inflight := updWhere (fun x => x.ord == e.ord) (fun _ => e) k.inflight }
/-- A group's sample whose rows are not captured is skipped (Table 5.5). -/
def dropSample (s : State) (c : CoreId) (g : GroupId) (always : Bool) : State :=
  match (s.core c).sampler.sample with
  | some m =>
    if m.group = g ∧ (always ∨ m.captured = false) then
      s.modCore c (fun k => skipSample { k with sampler := { k.sampler with sample := none } } g)
    else s
  | none => s
/-- A stop boundary: a free one of the boundaries a + i × step up to the end; at or beyond `b` the work completes. -/
def stopAt (s : State) (a b step : Nat) : Nat := a + step * (Config.preemptCursor s.free % ((b - a + step - 1) / step + 1))

/-- A pass stops at a 32-row boundary: the rows before it are written, or the pass completes (R79). -/
def stopPass (s : State) (c : CoreId) (e : Entry) (p : PassP) (tiles : List (Option Tile)) : State × Option PassP :=
  let b := stopAt s p.cursor p.m 32
  let s := s.drew 1
  if p.m ≤ b then (finishPass s c e p tiles true, none)
  else
    let r := writeRows s c p tiles p.cursor b
    let codes := if p.cursor = 0 ∧ 0 < b then countCodes s c p tiles else 0
    let d := countResults r.2 p.done
    let p' := { p with cursor := b, done := { d with nancode := satAdd d.nancode codes } }
    (r.1.modCore c (fun k => k.swapEntry { e with op := .pass p' tiles }), some p')

/-- Ends every pass of a group in flight but the last. -/
def finishEarlier (s : State) (c : CoreId) : List Entry → State × Option (Entry × PassP × List (Option Tile))
  | [] => (s, none)
  | [e] => (match e.op with | .pass p ts => (s, some (e, p, ts)) | _ => (s, none))
  | e :: t =>
    let s := match e.op with | .pass p ts => finishPass s c e p ts true | _ => s
    finishEarlier s c t

/-- Whether a group's run is being retried. -/
def groupRetrying (x : Group) : Bool := match x.run with | some r => r.retrying | none => false
/-- A group stops for pre-emption and its record is written; a held retry has state 3 (Table 3.11). -/
def preemptGroup (state : Nat) (c : CoreId) (s : State) (g : GroupId) : State :=
  let x := (s.core c).group g
  match x.run, groupRetrying x with
  | some r, true =>
    putPassRecord s c g { state := 3, pass := (r.passes.getLast?).map (·.p),
                          syndrome := (r.syndromes.getLast?.map syndromeWord).getD 0 }
  | _, _ =>
    let r := finishEarlier s c (passesInFlight (s.core c) g)
    match r.2 with
    | none => putPassRecord r.1 c g { state := 0, pass := none, syndrome := 0 }
    | some (e, p, ts) =>
      let t := stopPass (dropSample r.1 c g false) c e p ts
      putPassRecord t.1 c g { state := if t.2.isSome then state else 0, pass := t.2, syndrome := 0 }

/-- A group's passes are aborted: partials are discarded, the output tile is poisoned, the run will start again (R90). -/
def abortGroup (allowance : Nat) (save : Bool) (c : CoreId) (s : State) (g : GroupId) : State :=
  let x := (s.core c).group g
  match x.run, groupRetrying x with
  | some r, true =>
    let s := s.modCore c (fun k => k.modGroup g (fun x => { x with run := some { r with held := true } }))
    if save then putPassRecord s c g { state := 3, pass := (r.passes.getLast?).map (·.p),
                                       syndrome := (r.syndromes.getLast?.map syndromeWord).getD 0 } else s
  | _, _ =>
    let fl := passesInFlight (s.core c) g
    let mine := match x.run with | some r => r.passes.length | none => 0
    -- passes of an earlier run are past their last row: they fill out
    let s := (fl.take (fl.length - mine)).foldl (fun s e => match e.op with | .pass p ts => finishPass s c e p ts true | _ => s) s
    match (fl.drop (fl.length - mine)).getLast?, x.run with
    | some e, some r =>
      (match e.op with
        | .pass p _ =>
          let outs := (passBuffers s c p).2
          let s := dropSample s c g true
          let s := s.modCore c (fun k => outs.foldl (fun k n => k.setBuf n .poisoned)
            (k.modGroup g (fun x => { x with run := some { r with replay := r.passes, retrying := true, held := true } })))
          let s := s.log thmArrayAbort (srcBase (towerOf c)) (locArray c g 0) 0 none
            [BitVec.ofNat 64 c.val, BitVec.ofNat 64 g.val, BitVec.ofNat 64 allowance]
          if save then putPassRecord s c g { state := 4, pass := some p, syndrome := 0 } else s
        | _ => s)
    | _, _ => if save then putPassRecord s c g { state := 0, pass := none, syndrome := 0 } else s

/-- The vector instruction in flight last stops at a 4,096-element boundary; shorter ones complete (R133). -/
def stopVec (s : State) (c : CoreId) (e : Entry) (p : VecP) : State :=
  if p.len ≤ 4096 then finishVec s c e p
  else if vecReduces p.op then s
  else
    let b := stopAt s p.cursor p.len 4096
    let s := s.drew 1
    if p.len ≤ b then finishVec s c e p
    else (vecWrite s c p p.cursor b).modCore c (fun k => k.swapEntry { e with op := .vec { p with cursor := b } })
/-- A move stops at a 4 KiB boundary of its source; a held one stays held (R133, R223). -/
def stopMove (s : State) (c : CoreId) (part : PartId) (e : Entry) (p : MoveP) : State :=
  if moveHeld s c p then s
  else
    let b := stopAt s p.cursor p.len 4096
    let s := s.drew 1
    if p.len ≤ b then finishMove s c part e p false
    else if p.sfmt = 0 ∧ p.dfmt = 0 then
      -- the segments before the boundary are in place
      let part0 := { p with len := b }
      let s := match p.op, p.other, remoteParts p.remote with
        | .copy, some o, _ => s.csWrite c (p.store.addr + p.cursor) ((s.csRead c o.addr b).drop p.cursor)
        | .load, _, some (v, a) => let r := s.viewRead c v a b; r.1.csWrite c (p.store.addr + p.cursor) (r.2.1.drop p.cursor)
        | .store, _, some (v, a) =>
          s.viewWrite c v (a + p.cursor) ((s.csRead c p.store.addr b).drop p.cursor) ((s.core c).anyPoisoned e.reads)
        | _, _, _ => s
      s.modCore c (fun k => k.swapEntry { e with op := .move { p with cursor := part0.len } })
    else s
/-- Stops every vector and move instruction in flight, oldest first; all but the last of a queue complete. -/
def stopQueue (s : State) (c : CoreId) (part : PartId) : List Entry → State
  | [] => s
  | [e] => (match e.op with
    | .vec p => stopVec s c e p
    | .move p => stopMove s c part e p
    | _ => s)
  | e :: t =>
    let s := match e.op with
      | .vec p => finishVec s c e p
      | .move p => if moveHeld s c p then s else finishMove s c part e p false
      | _ => s
    stopQueue s c part t

/-- The work item leaves the core with everything it needs to go on (R81, R133): its launches and collectives stay in flight. -/
def saveItem (s : State) (c : CoreId) : State :=
  let s := putSeqRecord s c
  let k := s.core c
  match k.item with
  | none => s
  | some i =>
    let v : Saved := {
      item := i, pc := k.pc, regs := k.regs, flags := k.flags, counters := k.counters, queues := k.queues, stalled := k.stalled,
      inflight := k.inflight, clash := k.clash, bufs := k.bufs, groups := k.groups, counts := k.arith, satMov := k.satMov,
      infMov := k.infMov, sndTaken := k.sndTaken, sndSkipped := k.sndSkipped, poisonSeen := k.poisonSeen,
      passPoison := k.passPoison, nbPoison := k.nbPoison, stalls := k.stalls, waitLimit := k.waitLimit, wait := k.wait,
      waitSince := k.waitSince, waitTick := k.waitTick, slot := k.slot }
    s.setCore c { k with item := none, saved := some v, queues := [], stalled := none, inflight := [], clash := [], bufs := [],
                         wait := .none, lastCtx := some i.context, preemptPending := false, mode := .run }

/-- The marks after a wake from retention: a binding that touches banks 0-23 is EMPTY (R409). -/
def Core.wakeMarks (k : Core) : Core :=
  { k with bufs := updWhere (fun b => decide (b.base < 0x300000)) (fun b => { b with st := .empty }) k.bufs }
/-- A core wakes from retention or off on the internal oscillator (R409, R411, R412). -/
def wakeCore (s : State) (c : CoreId) : State :=
  changeRate s c (fun k =>
    let k := if k.item.isSome then k.wakeMarks else k
    { k with mode := (if k.item.isSome then .wait else .run), modeSince := s.now, onLoop := false, loopLocked := false,
             clkLoop := false })
/-- A core in mode 2 wakes before it is pre-empted (Table 15.6). -/
def wakeFirst (s : State) (c : CoreId) : State := if (s.core c).mode = .retention then wakeCore s c else s

/-- Pre-emption of the running work item (R79, R133), its records with a state. -/
def preempt (state : Nat) (s : State) (c : CoreId) : State :=
  match (s.core c).item with
  | none => s
  | some i =>
    let s := allGroups.foldl (preemptGroup state c) (wakeFirst s c)
    let s := stopQueue s c i.partition ((s.core c).inflight.filter (fun e => e.queue == .vec))
    let s := stopQueue s c i.partition ((s.core c).inflight.filter (fun e => e.queue == .mov))
    saveItem s c

/-- PREEMPT_REQUEST: deferred during fault handling (Table 3.11) and while a pre-empted work item is held (R81). -/
def execPreemptRequest (c : CoreId) (s : State) : Out :=
  .next (
    let k := s.core c
    match k.item with
    | some i =>
      if i.preemptible = false ∨ k.saved.isSome ∨ k.paused then s
      else if k.groups.any groupRetrying then s.setCore c { k with preemptPending := true }
      else preempt 1 s c
    | none => s)

/-- A deferred pre-emption takes place once no run of the core is being retried. -/
def preemptNow (c : CoreId) (s : State) : State :=
  let k := s.core c
  if k.preemptPending ∧ k.saved.isNone ∧ k.groups.any groupRetrying = false then preempt 1 s c else s

/-- PASS_COMPLETE: the drain writes the last accumulator of the oldest pass of the group in flight (Table 3.2, step 9), or
of the next pass of a retried run. -/
def execPassComplete (c : CoreId) (g : GroupId) (s : State) : Out :=
  .next (
    let k := s.core c
    if k.mode ≠ .run ∧ k.mode ≠ .wait then s
    else match (k.group g).run with
      | some r =>
        if r.held then s
        else match r.replay with
          | rp :: rest => preemptNow c (settle c (replayPass s c g r rp rest))
          | [] => settle c (oldest s k)
      | none => settle c (oldest s k))
where
  /-- Completes the group's oldest pass in flight. -/
  oldest (s : State) (k : Core) : State :=
    match passesInFlight k g with
    | e :: _ => (match e.op with | .pass p tiles => finishPass s c e p tiles true | _ => s)
    | [] => s

/-! ## Thermal stops (R90, R430, R431) -/

/-- The row period of a pass: its planes, at least 4 outside square shape; a split-precision pass adds its outlier rows'
period (R68, R142). -/
def rowPeriod (p : PassP) : Nat :=
  let b := planes p.wfmt
  let p0 := if p.shape = 2 then b else Nat.max b 4
  match p.outlier, p.ocfg with
  | true, some o => Nat.max p0 (if o.pair then 4 else 8)
  | _, _ => p0
/-- The bound of R79 at the present clock, in ns, over the passes in flight. -/
def preemptBound (k : Core) : Nat :=
  let p := k.inflight.foldl (fun acc e => match e.op with | .pass p _ => Nat.max acc (rowPeriod p) | _ => acc) 0
  ((32 * p + 108) * 160 + 13 * k.q - 1) / (13 * k.q)

/-- The stop of a core for a thermal emergency or a fast stop, with the allowance in ns (R90). -/
def thermalStop (s : State) (c : CoreId) (allowance : Nat) : State :=
  let k := s.core c
  match k.item with
  | none => s
  | some i =>
    if k.saved.isSome then
      (allGroups.foldl (abortGroup allowance false c) s).modCore c (fun k => { k with paused := true })
    else if preemptBound k ≤ allowance then preempt 2 s c
    else
      let s := allGroups.foldl (abortGroup allowance true c) (wakeFirst s c)
      let s := stopQueue s c i.partition ((s.core c).inflight.filter (fun e => e.queue == .vec))
      let s := stopQueue s c i.partition ((s.core c).inflight.filter (fun e => e.queue == .mov))
      saveItem s c

/-- The groups of a core let their held runs start again. -/
def Core.releaseRuns (k : Core) : Core :=
  { k with groups := k.groups.map (fun x => match x.run with | some r => { x with run := some { r with held := false } } | none => x) }

/-! ## Array faults and fences (R86, R87, R455) -/

/-- Groups of a core in service. -/
def Core.liveGroups (k : Core) : Nat := (k.groups.filter (fun x => !x.dead)).length
/-- A partition without a core. -/
def Part.without (c : CoreId) (p : Part) : Part := { p with cores := p.cores.filter (fun n => n != c.val) }
/-- Fences a core (R455): it leaves its partition; its slice keeps serving. -/
def State.fenceCore (s : State) (c : CoreId) : State :=
  if (s.core c).fenced then s
  else
    let s := (s.modCore c (fun k => { k with fenced := true })).addFence 2 c.val 0
    let s := { s with parts := s.parts.map (Part.without c) }
    s.log errCoreFenced srcMp (loc 3 (c.val * 2 ^ 48))
/-- Fences a group, and the core when fewer than six are left. -/
def fenceGroup (s : State) (c : CoreId) (g : GroupId) (det : List W64) : State :=
  if ((s.core c).group g).dead then s
  else
    let s := (s.modCore c (fun k => k.modGroup g (fun x => { x with dead := true }))).addFence 1 c.val g.val
    let s := s.log evGroupFenced (srcCore c) (locArray c g 0) 0 none det
    if (s.core c).liveGroups < 6 then s.fenceCore c else s
/-- Fences an array; a fifth fenced array fences the group. -/
def fenceArray (s : State) (c : CoreId) (g : GroupId) (a : Nat) (det : List W64) : State :=
  let x := (s.core c).group g
  if x.fence.getLsbD a ∨ x.dead then s
  else
    let s := (s.modCore c (fun k => k.modGroup g (fun x => { x with fence := x.fence ||| BitVec.ofNat 16 (2 ^ a) }))).addFence 0 c.val
      (16 * g.val + a)
    let s := s.log evArrayFenced (srcCore c) (locArray c g a) 0 none det
    if 4 < ones 16 ((s.core c).group g).fence.toNat then fenceGroup s c g det else s
/-- Fences what a run's faults reported: arrays for checks 1 and 2, the group for checks 3 and 4. -/
def fenceFor (s : State) (c : CoreId) (ys : List Syndrome) : State :=
  let det := BitVec.ofNat 64 ys.length :: ys.map (fun y => BitVec.ofNat 64 (syndromeWord y))
  ys.foldl (fun s y =>
    if y.check = 1 ∨ y.check = 2 then fenceArray s c y.pgroup y.array.val det else fenceGroup s c y.pgroup det) s

/-- A fault in a run (Table 3.10). -/
def faultRun (s : State) (c : CoreId) (g : GroupId) (r : Run) (y : Syndrome) : State :=
  let k := s.core c
  let ys := r.syndromes ++ [y]
  let n := r.retries + 1
  let outs := match r.passes with | rp :: _ => (passBuffers s c rp.p).2 | [] => []
  let again : Run := { r with retries := n, syndromes := ys, replay := r.passes, retrying := true, held := r.held || k.emergency || k.paused }
  let redo (s : State) : State := s.modCore c (fun k => outs.foldl (fun k b => k.setBuf b .poisoned)
    (k.modGroup g (fun x => { x with run := some again })))
  let s := dropSample s c g true
  if r.held then
    (redo s).log evArrayRetry (srcCore c) (locArray c y.pgroup (if y.check = 1 ∨ y.check = 2 then y.array.val else 0)) 0 none
      [BitVec.ofNat 64 (syndromeWord y)]
  else match n with
    | 1 => (redo s).log evArrayRetry (srcCore c)
        (locArray c y.pgroup (if y.check = 1 ∨ y.check = 2 then y.array.val else 0)) 0 none [BitVec.ofNat 64 (syndromeWord y)]
    | 2 => fenceFor (redo s) c ys
    | _ =>
      let gone := (passesInFlight k g).map (·.ord)
      s.modCore c (fun k =>
        let k := outs.foldl (fun k b => k.setBuf b .poisoned) k
        let k := k.modGroup g (fun x => { x with run := none })
        let k := { k with inflight := k.inflight.filter (fun e => !(gone.contains e.ord)) }
        k.fault stArrayFault r.runPc)

/-- ARRAY_FAULT: a check of R55 or a drain or feeder check fails during a run of the group. -/
def execArrayFault (c : CoreId) (g : GroupId) (syn : Syndrome) (s : State) : Out :=
  .next (
    match ((s.core c).group g).run with
    | some r =>
      if 1 ≤ syn.check.toNat ∧ syn.check.toNat ≤ 4 ∧ ((passesInFlight (s.core c) g).isEmpty = false ∨ r.held) then
        faultRun s c g r syn
      else s
    | none => s)

/-- ACTIVE_PARITY_CHECK: a bad row or plane of a loaded tile is an array fault of the group's run; with no run the tile has
met no activation and nothing is retried. -/
def execActiveParityCheck (c : CoreId) (g : GroupId) (array : Fin 16) (bad : Option (Fin 32 × Fin 8)) (s : State) : Out :=
  .next (
    let x := (s.core c).group g
    match bad, x.active.getD array.val none, x.run with
    | some (row, plane), some _, some r =>
      faultRun s c g r { check := 1, pgroup := g, array := array, line := row, plane := plane }
    | _, _, _ => s)

end Sys2Proof.Machine
end

