-- ==== Sys2Proof/Machine/Clock.lean ====
section
/-! DEFINITION. Clock loops, island counters, sync rounds and rate records (R304-R309, R412, R413). -/

namespace Sys2Proof.Machine

/-! ## Who runs -/

/-- Whether the firmware processors have been released (Table 12.3) and the module is not in SAFE. -/
def State.serving (s : State) : Bool := (s.start.phase == .booted || s.start.phase == .service) && !s.err.safe
/-- A firmware processor. -/
def State.proc (s : State) (p : Nat) : Proc := s.procs.getD p Proc.reset
/-- Whether a processor runs. -/
def State.procUp (s : State) (p : Nat) : Bool := (s.start.phase == .booted || s.start.phase == .service) && (s.proc p).st == .running
/-- Whether a scheduler serves a tower's sequences, pages and outcomes: its own, or another that took over from one held down (R400). -/
def State.tsServes (s : State) (t : Nat) : Bool :=
  s.procUp (2 + t) || ((s.proc (2 + t)).st == .heldDown && (List.range 8).any (fun u => s.procUp (2 + u)))
/-- Whether the MP runs: what the MP does waits while it restarts (R398). -/
def State.mpUp (s : State) : Bool := s.procUp 0
/-- The state with a processor changed. -/
def State.modProc (s : State) (p : Nat) (f : Proc → Proc) : State := { s with procs := s.procs.modify p f }
/-- The cores of a tower. -/
def towerCores (t : TowerId) : List CoreId := (List.range 64).map (fun i => Fin.ofNat 512 (64 * t.val + i))

/-! ## Rest of a tower (R406) -/

/-- Whether a tower's scheduler may rest: every core island of the tower in retention or off, no sequence of it ACTIVE or in PAGE_WAIT. -/
def towerRests (s : State) (t : TowerId) : Bool :=
  (towerCores t).all (fun c => (s.core c).mode == .retention || (s.core c).mode == .off)
  && !(s.seqs.any (fun (q : Seq) => (q.st == .active || q.st == .pageWait) && decide (q.firstCore < 64 * t.val + 64)
    && decide (64 * t.val < q.firstCore + q.coreCount)))
/-- The scheduler of a tower at rest enters retention. -/
def restTower (s : State) (t : TowerId) : State :=
  if s.procUp (2 + t.val) ∧ towerRests s t then s.modProc (2 + t.val) (fun x => { x with st := .retention }) else s

/-! ## Rates (R57, R309) -/

/-- RATE_RECORD_EMIT: a record held back by the limit of one in 10 µs goes. -/
def execRateRecordEmit (c : CoreId) (s : State) : Out := .next (if rateDue (s.core c) s.now then emitRate s c else s)

/-- The highest q that a tower rail supports (Table 15.4), the rail in mV. -/
def supportedQ (mv : Nat) : Nat := if 800 ≤ mv then 16 else if 730 ≤ mv then 12 else if 670 ≤ mv then 8 else 4
/-- The rail that a clock step needs (Table 15.4): steps between the points take the next higher point. -/
def railOf (q : Nat) : Nat := if 12 < q then 800 else if 8 < q then 730 else if 4 < q then 670 else 600
/-- A point-of-load stage. -/
def State.stage (s : State) (n : StageId) : Stage := s.pwr.stages.getD n.val Stage.reset
/-- The stage of a tower. -/
def stageOf (t : TowerId) : StageId := Fin.ofNat 11 t.val
/-- Whether a pre-throttle holds a core's island: of its own hot spot, of a layer of its slice, or of its base die, which acts on the
whole tower (R429, R433). Spots are numbered as in `spotKey`. -/
def preThrottled (s : State) (c : CoreId) : Bool :=
  let t := (towerOf c).val
  s.thm.spots.any (fun x => (x.1 == c.val || (decide (4096 + 8 * c.val ≤ x.1) && decide (x.1 < 4096 + 8 * c.val + 8))
    || (decide (8192 + 4 * t ≤ x.1) && decide (x.1 < 8192 + 4 * t + 4))) && x.2.preThrottle.isSome)
/-- The clock ceiling of the power cap (R417), at most 8 in a derated tower (R432). -/
def capCeiling (s : State) (c : CoreId) : Nat :=
  if (s.thm.towers.getD (towerOf c).val TowerThm.reset).derated then Nat.min s.pwr.qMax 8 else s.pwr.qMax
/-- The highest q that a core may run at whatever its rail: the ceiling, a pre-throttle's 8, a fast stop's 4 (R429, R431). -/
def qWant (s : State) (c : CoreId) : Nat :=
  Nat.min (capCeiling s c) (if (s.core c).fastStopped then 4 else if preThrottled s c then 8 else 16)
/-- The highest q that a core may run at: what it may want, within what its rail supports (R415). -/
def qLimit (s : State) (c : CoreId) : Nat := Nat.min (qWant s c) (supportedQ (s.stage (stageOf (towerOf c))).setpoint)
/-- A change of a core's rate to q, within its limits. -/
def setRate (s : State) (c : CoreId) (q : Nat) : State :=
  let q := Nat.min q (qLimit s c)
  if (s.core c).q = q then s else changeRate s c (fun k => { k with q := q })
/-- RATE_CHANGE: the island's clock takes another rate q (R57, R429): 4 to 16 sixteenths. -/
def execRateChange (c : CoreId) (q : Fin 17) (s : State) : Out :=
  .next (
    let k := s.core c
    if 4 ≤ q.val ∧ k.mode ≠ .off ∧ k.mode ≠ .retention then setRate s c q.val else s)

/-- CLOCK_SWITCH: the loop has locked; when the loop is selected and the rail supports the cap's ceiling, the core runs on it
from now on (R413). -/
def execClockSwitch (c : CoreId) (s : State) : Out :=
  .next (
    let k := s.core c
    if k.onLoop ∨ k.mode = .off ∨ k.mode = .retention then s
    else if k.clkLoop ∧ capCeiling s c ≤ supportedQ (s.stage (stageOf (towerOf c))).setpoint then changeRate s c (fun k => { k with loopLocked := true, onLoop := true })
    else s.setCore c { k with loopLocked := true })

/-! ## Clock loops of the dies (R305) -/

/-- A die's clock. -/
def State.clk (s : State) (d : DieId) : DieClk := s.clks.getD d.val { locked := true, unlockedAt := none }
/-- The state with a die's clock changed. -/
def State.setClk (s : State) (d : DieId) (k : DieClk) : State := { s with clks := s.clks.set d.val k }
/-- The source of a die's records: base die or IO die. -/
def srcDie (d : DieId) : Source := if d.val < 8 then srcBase (Fin.ofNat 8 d.val) else srcIo (d.val - 8)
/-- CLOCK_UNLOCK: the loop holds its frequency. -/
def execClockUnlock (d : DieId) (s : State) : Out :=
  .next (
    if (s.clk d).locked then
      (s.setClk d { locked := false, unlockedAt := some s.now }).log evClkUnlock (srcDie d) (locDie d.val) 0 none [w64 d.val]
    else s)

/-! ## Sync rounds (R308) -/

/-- The sources of a round. -/
def syncSources : List Source :=
  (List.range 512).map (fun n => { kind := 0, index := n }) ++ (List.range 512).map (fun n => { kind := 1, index := n })
  ++ (List.range 512).map (fun n => { kind := 2, index := n }) ++ (List.range 8).map (fun n => { kind := 3, index := n })
  ++ [{ kind := 4, index := 8 }, { kind := 4, index := 9 }] ++ (List.range 12).map (fun n => { kind := 5, index := n })
/-- The rate a source reports: q of a core, 16 elsewhere. -/
def srcRate (s : State) (x : Source) : Nat := if x.kind = 0 then (s.core (Fin.ofNat 512 x.index)).q else 16
/-- Opens a round: the opening record, and every source's answer. -/
def openRound (s : State) (tag : W32) : State :=
  let n := s.sync.round
  let s := s.log { code := Config.syncCode 0, severity := 0 } srcMp 0 0 none [w64 n, w64 (islandTime s srcMp), tag.setWidth 64]
  let s := { s with sync := { s.sync with round := n + 1, open_ := some (tag, n), lastAt := s.now } }
  syncSources.foldl (fun s x =>
    s.log { code := Config.syncCode 1, severity := 0 } x 0 0 none [w64 n, w64 (islandTime s x), w64 (srcRate s x)]) s
/-- SYNC_ROUND: a queued request's round, or the periodic round when it is due. -/
def execSyncRound (s : State) : Out :=
  .next (
    if s.mpUp = false ∨ s.sync.open_.isSome then s
    else match s.sync.queued with
      | some t => openRound { s with sync := { s.sync with queued := none } } t
      | none =>
        if s.sync.lastAt + s.sync.periodMs.toNat * 1000000 ≤ s.now then openRound s 0 else s)
/-- SYNC_ROUND_CLOSE: every source has answered. -/
def execSyncRoundClose (s : State) : Out :=
  .next (
    match s.sync.open_ with
    | some (_, n) =>
      if s.mpUp then
        ({ s with sync := { s.sync with open_ := none } }).log { code := Config.syncCode 2, severity := 0 } srcMp 0 0 none
          [w64 n, w64 (islandTime s srcMp)]
      else s
    | none => s)
/-- A write of FW_SYNC_REQ: a round with the tag, or the next round when one is open. -/
def syncRequest (s : State) (tag : W32) : State :=
  if s.sync.open_.isSome then { s with sync := { s.sync with queued := some tag } } else openRound s tag

end Sys2Proof.Machine
end

