-- ==== Sys2Proof/Machine/Sense.lean ====
section
/-! DEFINITION. Sensors, hot spots, protection readings and predictions (R421-R426). Temperatures are in 0.25 °C. -/

namespace Sys2Proof.Machine

/-- Kind and index of a sensor as THM_SENSOR_SEL numbers them (Table 16.7). -/
def sensorKey : SensorId → Nat
  | .core c n => 2 * c.val + n.val
  | .layer c l => 4096 + 8 * c.val + l.val
  | .base t n => 8192 + 4 * t.val + n.val
  | .io d n => 12288 + 4 * d.val + n.val
/-- The number of a hot spot: a core's own number, a single sensor's number elsewhere. -/
def spotKey : HotSpot → Nat
  | .core c => c.val
  | .layer c l => 4096 + 8 * c.val + l.val
  | .base t n => 8192 + 4 * t.val + n.val
  | .io d n => 12288 + 4 * d.val + n.val
/-- The hot spot that a sensor watches. -/
def spotOf : SensorId → HotSpot
  | .core c _ => .core c
  | .layer c l => .layer c l
  | .base t n => .base t n
  | .io d n => .io d n
/-- The sensors of a hot spot. -/
def sensorsOf : HotSpot → List SensorId
  | .core c => [.core c 0, .core c 1]
  | .layer c l => [.layer c l]
  | .base t n => [.base t n]
  | .io d n => [.io d n]
/-- The tower of a hot spot; none on an IO die. -/
def spotTower : HotSpot → Option TowerId
  | .core c => some (towerOf c)
  | .layer c _ => some (towerOf c)
  | .base t _ => some t
  | .io _ _ => none

/-- A sensor. -/
def State.sensor (s : State) (x : SensorId) : Sensor := (smGet s.thm.sensors (sensorKey x)).getD Sensor.reset
/-- The state with a sensor changed. -/
def State.modSensor (s : State) (x : SensorId) (f : Sensor → Sensor) : State :=
  { s with thm := { s.thm with sensors := smSet s.thm.sensors (sensorKey x) (f (s.sensor x)) } }
/-- A hot spot. -/
def State.spot (s : State) (h : HotSpot) : Spot := (smGet s.thm.spots (spotKey h)).getD Spot.reset
/-- The state with a hot spot changed. -/
def State.modSpot (s : State) (h : HotSpot) (f : Spot → Spot) : State :=
  { s with thm := { s.thm with spots := smSet s.thm.spots (spotKey h) (f (s.spot h)) } }

/-- Cores beside a core in the 8 × 8 grid of its die: core number 8 × row + column (log entry 23). -/
def besideCores (c : CoreId) : List CoreId :=
  let r := c.val % 64 / 8
  let q := c.val % 8
  (if 0 < r then [Fin.ofNat 512 (c.val - 8)] else []) ++ (if r < 7 then [Fin.ofNat 512 (c.val + 8)] else [])
  ++ (if 0 < q then [Fin.ofNat 512 (c.val - 1)] else []) ++ (if q < 7 then [Fin.ofNat 512 (c.val + 1)] else [])
/-- Layers of a slice. -/
def allLayers : List LayerId := [0, 1, 2, 3, 4, 5, 6, 7]
/-- Neighbours of a hot spot (Table 16.1). -/
def neighbours : HotSpot → List HotSpot
  | .core c => (besideCores c).map .core
  | .layer c l => (besideCores c).map (fun x => .layer x l)
      ++ (allLayers.filter (fun m => m.val + 1 == l.val || m.val == l.val + 1)).map (fun m => .layer c m)
  | .base t n => (([0, 1, 2, 3] : List (Fin 4)).filter (fun m => m != n)).map (.base t) ++ (towerCores t).map .core
  | .io d n => (([0, 1, 2, 3] : List (Fin 4)).filter (fun m => m != n)).map (.io d)

/-- The higher of two temperatures. -/
def hotter (a b : Int) : Int := if a < b then b else a
/-- The highest of a list, none of an empty one. -/
def hottest : List Int → Option Int
  | [] => none
  | a :: t => match hottest t with | some b => some (hotter a b) | none => some a
/-- Whether the model's prediction of a hot spot is at most 1 ms old (R426). -/
def freshP (s : State) (h : HotSpot) : Bool := match (s.spot h).pAt with | some t => decide (s.now ≤ t + 1000000) | none => false

/-- The protection reading of a hot spot (R423, R424), with neighbours followed to a depth. -/
def protTo (s : State) : Nat → HotSpot → Int
  | 0, h => ((hottest ((sensorsOf h).map (fun x => (s.sensor x).reading))).getD 0)
  | n + 1, h =>
    let xs := sensorsOf h
    let good := xs.filter (fun x => (s.sensor x).st == 0)
    let read := good.map (fun x => (s.sensor x).reading)
    let near := hottest ((neighbours h).map (protTo s n))
    match hottest read with
    | some t => if good.length < xs.length then t + 12 else t
    | none =>
      let model := if xs.length = 1 ∧ freshP s h then some (s.spot h).p else none
      match near, model with
      | some a, some b => hotter a b + 12
      | some a, none => a + 12
      | none, some b => b + 12
      | none, none => 0
/-- The protection reading T of a hot spot. -/
def prot (s : State) (h : HotSpot) : Int := protTo s 2 h
/-- The temperature predicted 5 ms ahead, P: T + 3 °C without a fresh prediction. -/
def predP (s : State) (h : HotSpot) : Int := if freshP s h then (s.spot h).p else prot s h + 12
/-- The measured rise of T over the last 1 ms. -/
def measuredRise (s : State) (h : HotSpot) : Int :=
  match (s.spot h).history.find? (fun x => decide (x.1 + 1000000 ≤ s.now)) with
  | some x => prot s h - x.2
  | none => 0
/-- The rate of rise r, in 0.25 °C per 5 ms: 1 °C/ms is 20. -/
def rise (s : State) (h : HotSpot) : Int := if freshP s h then (s.spot h).p - prot s h else 5 * measuredRise s h

/-- The band of a layer at a temperature (R161). -/
def bandOf (t : Int) : Nat := if 420 < t then 3 else if 380 ≤ t then 2 else if 340 ≤ t then 1 else 0
/-- The lower boundary of a band. -/
def bandFloor (b : Nat) : Int := match b with | 1 => 340 | 2 => 380 | _ => 420
/-- The throttle step at a temperature, with t1 in °C (Table 6.6). -/
def stepOf (t1 : Nat) (t : Int) : Nat :=
  let x : Int := 4 * t1
  if x + 12 ≤ t then 3 else if x + 8 ≤ t then 2 else if x ≤ t then 1 else 0
/-- The threshold of a step. -/
def stepFloor (t1 n : Nat) : Int := 4 * t1 + (match n with | 2 => 8 | 3 => 12 | _ => 0)
/-- The two layers of a channel. -/
def chanLayers (ch : ChanId) : List LayerId := [Fin.ofNat 8 (2 * ch.val), Fin.ofNat 8 (2 * ch.val + 1)]
/-- The band of a layer as decided. -/
def Slice.layer (k : Slice) (l : LayerId) : Layer := k.layers.getD l.val Layer.reset
/-- The state with a layer changed. -/
def State.modLayer (s : State) (c : CoreId) (l : LayerId) (f : Layer → Layer) : State :=
  s.modSlice c (fun k => { k with layers := k.layers.modify l.val f })
/-- The state with the MP's record of a tower's thermal controller changed. -/
def State.modTower (s : State) (t : TowerId) (f : TowerThm → TowerThm) : State :=
  { s with thm := { s.thm with towers := s.thm.towers.modify t.val f } }
/-- A tower's thermal controller. -/
def State.tower (s : State) (t : TowerId) : TowerThm := s.thm.towers.getD t.val TowerThm.reset

end Sys2Proof.Machine
end

