-- ==== Sys2Proof/Machine/WorkItem.lean ====
section
/-! DEFINITION. Work items start, fail, resume; idle cores sleep and wake (R81-R83, R128-R133, R405-R413). -/

namespace Sys2Proof.Machine

/-! ## Start (R130-R132) -/

/-- Words of a byte list. -/
def wordsOf (bs : List Byte) (n : Nat) : List W64 := (List.range n).map (fun i => BitVec.ofNat 64 (leNat ((bs.drop (8 * i)).take 8)))

/-- A binding entry as it is read (Table 4.17). -/
structure Binding where
  buf : Nat
  base : Nat
  size : Nat
  readOnly : Bool
  state : Nat
  reserved : Bool
  deriving DecidableEq, Repr
/-- The binding of two words. -/
def bindingOf (q0 q1 : W64) : Binding where
  buf := bits q0 56 8
  base := bits q0 0 17 * 32
  size := bits q0 32 18 * 32
  readOnly := bit q1 2
  state := bits q1 0 2
  reserved := bits q0 50 6 != 0 || bits q0 17 15 != 0 || bits q1 3 61 != 0
/-- Whether a binding fails with ST_BIND_RANGE (R131). -/
def Binding.bad (b : Binding) : Bool :=
  b.buf == 0 || b.buf == 255 || b.size == 0 || decide (130496 * 32 < b.size) || decide (0x3FB800 < b.base + b.size)
  || decide (1 < b.state) || b.reserved
/-- Whether a list of bindings overlaps or repeats a buffer number. -/
def bindingsClash : List Binding → Bool
  | [] => false
  | b :: t => t.any (fun x => x.buf == b.buf || overlaps x.base x.size b.base b.size) || bindingsClash t
/-- The status of bindings that are refused (R131): the range check, then the overlap check. -/
def bindingsFail (bs : List Binding) (held : List Buffer) : Option (BitVec 16) :=
  if bs.any Binding.bad then some stBindRange
  else if bindingsClash bs || bs.any (fun b => held.any (fun h => overlaps h.base h.size b.base b.size)) then some stBindOverlap
  else none
/-- A bound buffer. -/
def Binding.buffer (b : Binding) : Buffer where
  num := b.buf
  base := b.base
  size := b.size
  readOnly := b.readOnly
  st := if b.state = 1 then .complete else .empty
  written := 0
  set := 0

/-- A group at the start of a work item: no tile, no setting; its fences and the count of its soundings stay. -/
def Group.fresh (g : Group) : Group :=
  { Group.reset with fence := g.fence, dead := g.dead, passCount := g.passCount, window := g.window, samples := g.samples }

/-- A core as a work item starts: registers from the argument block, every counter of the work item 0 (R95, Table 4.5). -/
def Core.begin (k : Core) (i : WorkItem) (rest : List WorkItem) (slot : Nat) (args : List W64) (bs : List Buffer) (now : Nat) :
    Core :=
  { k with
    item := some i, localQ := rest, slot := slot, pc := i.entry.toNat, bufs := bs,
    regs := 0 :: (args.take 8 ++ List.replicate 23 0),
    queues := [], stalled := none, inflight := [], clash := [], wait := .none, stalls := List.replicate 13 0, flags := 0,
    counters := List.replicate 16 0, poisonSeen := false, passPoison := false, nbPoison := false, waitLimit := i.waitLimit,
    clkLoop := true, groups := k.groups.map Group.fresh, arith := List.replicate 8 ArithCnt.zero, satMov := 0, infMov := 0,
    sndTaken := 0, sndSkipped := 0, preemptPending := false, mode := .run, modeSince := now }

/-- WORK_ITEM_START: the next work item of the local queue starts. A refused one ends at once and runs no instruction; a
pre-empted work item goes before one of equal or lower priority (R385). -/
def execWorkItemStart (c : CoreId) (s : State) : Out :=
  .next (
    let k := s.core c
    match k.item, k.localQ with
    | none, i :: rest =>
      if k.fenced ∨ k.emergency ∨ k.fastStopped ∨ k.mode = .retention ∨ k.mode = .off
        ∨ k.saved.any (fun v => decide (i.priority.toNat ≤ v.item.priority.toNat)) then s
      else
        let n := i.bindCount.toNat
        let b := s.viewRead c 1 (bits i.bindAddr 0 60) (16 * n)
        let ws := wordsOf b.2.1 (2 * n)
        let binds := (List.range n).map (fun j => bindingOf (ws.getD (2 * j) 0) (ws.getD (2 * j + 1) 0))
        let held : List Buffer := match k.saved with | some v => v.bufs | none => []
        let kept : List (Nat × Nat) := held.map (fun (h : Buffer) => (h.base, h.size))
        let slot := match k.saved with | some v => 1 - v.slot | none => 0
        let a := b.1.viewRead c 1 (bits i.argAddr 0 60) i.argLen.toNat
        let s := a.1
        let args := wordsOf (a.2.1 ++ List.replicate 64 0) 8
        let s := match (s.core c).lastCtx with
          | some x => if x = i.context then s else s.csClear c kept
          | none => s.csClear c kept
        match bindingsFail binds held with
        | some st =>
          endItem (s.modCore c (fun k => k.begin i rest slot [] [] s.now)) c st 0xFFFFFFFF
        | none =>
          let s := s.csWrite c (0x3FB800 + slot * 0x400) (a.2.1 ++ List.replicate (0x400 - a.2.1.length) 0)
          let k := (s.core c).begin i rest slot args (binds.map Binding.buffer) s.now
          let k := { k with poisonSeen := b.2.2 || a.2.2 }
          s.setCore c (if i.entry.toNat < i.progLen.toNat then k else k.fault stPcRange k.pc)
    | _, _ => s)

/-- WORK_ITEM_FAULT: every instruction that had issued has run to completion, a COLL excepted (R373), and the core reports the
failure (R128). -/
def execWorkItemFault (c : CoreId) (s : State) : Out :=
  .next (
    let k := s.core c
    match k.wait with
    | .faulted st pc => if k.inflight.all (fun e => e.queue == .col) then endItem s c st pc else s
    | _ => s)

/-! ## Resumption (R83, R133) -/

/-- A tile read again from its record: one that changed makes the outputs that use it undefined (R85). -/
def reloadTile (s : State) (c : CoreId) (t : Tile) : Tile :=
  let bs := s.csRead c t.addr t.bytes.length
  { t with bytes := bs, stale := t.stale || bs != t.bytes }
/-- The operation of an entry with its tiles read again. -/
def reloadOp (s : State) (c : CoreId) : Op → Op
  | .pass p ts => .pass p (ts.map (fun t => t.map (reloadTile s c)))
  | o => o
/-- A group with its tiles read again. -/
def reloadGroup (s : State) (c : CoreId) (g : Group) : Group :=
  let again (l : List (Option Tile)) := l.map (fun t => t.map (reloadTile s c))
  { g with active := again g.active, shadow := again g.shadow,
           run := match g.run with | some r => some { r with held := false } | none => none }

/-- WORK_ITEM_RESUME: the pre-empted work item goes on where it stopped. -/
def execWorkItemResume (c : CoreId) (s : State) : Out :=
  .next (
    let k := s.core c
    match k.item, k.saved with
    | none, some v =>
      if k.emergency ∨ k.fastStopped ∨ k.fenced ∨ k.mode = .retention ∨ k.mode = .off then s
      else
        let fence (j : Nat) (g : Group) : Group :=
          let now := k.groups.getD j Group.reset
          { g with fence := now.fence, dead := now.dead }
        let groups := (v.groups.zipIdx.map (fun (g, j) => fence j g)).map (reloadGroup s c)
        let mode := waitMode { k with saved := none }
        let s := s.setCore c { k with
          item := some v.item, saved := none, pc := v.pc, regs := v.regs, flags := v.flags, counters := v.counters,
          queues := v.queues, stalled := v.stalled,
          inflight := v.inflight.map (fun e => { e with op := reloadOp s c e.op }),
          clash := v.clash, bufs := v.bufs, groups := groups, arith := v.counts, satMov := v.satMov, infMov := v.infMov,
          sndTaken := v.sndTaken, sndSkipped := v.sndSkipped, poisonSeen := v.poisonSeen, passPoison := v.passPoison,
          nbPoison := v.nbPoison, stalls := v.stalls, waitLimit := v.waitLimit, wait := v.wait, waitSince := v.waitSince,
          waitTick := v.waitTick, slot := v.slot, mode := (match v.wait with | .waiting _ _ _ => mode | _ => .run), modeSince := s.now,
          preemptPending := false, clkLoop := true }
        settle c (match v.wait, mode with
          | .waiting _ _ _, .retention => enterRetention (putSeqRecord s c) c
          | _, _ => s)
    | _, _ => s)

/-! ## Idle cores (R409-R412) -/

/-- IDLE_RETENTION_TIMER: an idle core enters retention, and the scheduler of a tower all of whose cores rest enters it too (R406, R411). -/
def execIdleRetentionTimer (c : CoreId) (s : State) : Out :=
  .next (
    let k := s.core c
    let us := s.pwr.retUs.toNat
    if k.mode = .idle ∧ k.item = none ∧ k.saved = none ∧ k.localQ.isEmpty ∧ us ≠ 0 ∧ k.modeSince + us * 1000 ≤ s.now then
      restTower (enterRetention s c) (towerOf c)
    else s)

/-- IDLE_OFF_TIMER: an island that is off keeps nothing (R405). -/
def execIdleOffTimer (c : CoreId) (s : State) : Out :=
  .next (
    let k := s.core c
    let ms := s.pwr.offMs.toNat
    if k.mode = .retention ∧ k.item = none ∧ k.localQ.isEmpty ∧ ms ≠ 0 ∧ k.modeSince + ms * 1000000 ≤ s.now then
      (s.csUndef c 0 coreStoreSize).modCore c (fun k => { k with mode := .off, modeSince := s.now })
    else s)

/-- CORE_WAKE: a core in retention or off wakes for the event of its WAIT, for its limit, or for a work item in its local
queue, on the internal oscillator (R409, R411, R412). -/
def execCoreWake (c : CoreId) (s : State) : Out :=
  .next (
    let k := s.core c
    let due : Bool := match k.wait with
      | .waiting ev a b => waitMet s k c ev a b || waitExpired s k
      | _ => !k.localQ.isEmpty
    if (k.mode = .retention ∨ k.mode = .off) ∧ due then
      wakeCore s c
    else s)

end Sys2Proof.Machine
end

