-- ==== Sys2Proof/Machine/Sounding.lean ====
section
/-! DEFINITION. Soundings: the sampler's figures, the sounding table, alarms and escalation; context totals (R135, R143-R155). -/

namespace Sys2Proof.Machine

/-! ## Figures of a sample (R146, R147) -/

/-- The integer square root, bit by bit. -/
def isqrtBits : Nat → Nat → Nat → Nat
  | 0, _, r => r
  | b + 1, n, r => let t := r + 2 ^ b; if t * t ≤ n then isqrtBits b n t else isqrtBits b n r
/-- The integer square root. -/
def isqrt (n : Nat) : Nat := isqrtBits (n.log2 / 2 + 1) n 0
/-- The square root of n / d in FP32, rounded once. -/
def sqrtF32 (n d : Nat) : W32 :=
  if n = 0 ∨ d = 0 then 0
  else
    -- n / d scaled by an even power of two so that the root has at least 64 bits, then a sticky bit
    let k : Nat := (d.log2 + 140)
    let q := n * 2 ^ (2 * k) / d
    let r := isqrt q
    let sticky := if r * r = q ∧ n * 2 ^ (2 * k) % d = 0 then 0 else 1
    BitVec.ofNat 32 (FFmt.f32.encQ .rne false (2 * r + sticky) 1 (-(k : Int) - 1))
/-- An FP32 value as an integer in units of 2^-149; none when it is not finite. -/
def fxInt (x : W32) : Option Int :=
  match f32v x with
  | .fin neg m e => some (FVal.toIntAt neg m e (-149))
  | _ => none
/-- Whether a word is finite. -/
def finite (x : W32) : Bool := (fxInt x).isSome
/-- Squares of a list of integers, summed. -/
def sumSq (l : List Int) : Nat := (l.map (fun x => x.natAbs * x.natAbs)).sum
/-- Differences of two lists of words, in units of 2^-149. -/
def diffs (a b : List W32) : List Int := (a.zip b).map (fun (x, y) => (fxInt x).getD 0 - (fxInt y).getD 0)
/-- +Inf in FP32. -/
def infWord : W32 := 0x7F800000
/-- rms(a − b) / rms(c) (R147): open where a recomputed value is not finite. -/
def rhoOf (draw : Nat) (a b c : List W32) : W32 :=
  if (b ++ c).any (fun x => !(finite x)) then Config.rhoOpen draw
  else
    let n := sumSq (diffs a b)
    let d := sumSq (c.map (fun x => (fxInt x).getD 0))
    if d = 0 then (if n = 0 then 0 else infWord) else sqrtF32 n d
/-- The largest |a − b|. -/
def maxErr (draw : Nat) (a b : List W32) : W32 :=
  if (a ++ b).any (fun x => !(finite x)) then Config.rhoOpen draw
  else
    let m := (diffs a b).foldl (fun acc x => Nat.max acc x.natAbs) 0
    toF32 (.fin false m (-149))

/-- Columns of a sample. -/
def sampleCols (m : Sample) : List Nat :=
  let lo := if m.pass.shape = 0 then 0 else 32 * m.select
  let hi := if m.pass.shape = 0 then m.pass.n else Nat.min m.pass.n (32 * m.select + 32)
  (List.range hi).drop lo
/-- A recomputation of a sample with given tiles: source activations requantised to A16 times the weights. -/
def recompute (m : Sample) (tiles : List (Option Tile)) : List W32 :=
  let p := { m.pass with afmt := 2 }
  let orows := m.rowMap.zipIdx.filterMap (fun (k, r) => k.map (fun k => (r, k)))
  m.src.flatMap (fun row =>
    let blocks := (chunks 32 p.kb row).map (fun b =>
      let q := quantAct 16384 false (fun _ => .rne) (b.map f32v)
      (q.codes, q.scale))
    (sampleCols m).map (fun n =>
      let ts := elementTerms p tiles orows blocks n
      treeSum (Config.sampTree ts.length) ts.length ts))

/-- The arrays that a sample covers. -/
def sampleArrays (m : Sample) : List Nat := (arraysOf m.pass (if m.pass.shape = 0 then 0 else m.select)).map (·.1)
/-- The reference tiles of a sample, whether they were read poisoned, and the state after the reads (R144). -/
def refTiles (s : State) (c : CoreId) (part : PartId) (m : Sample) (view a : Nat) : State × List (Option Tile) × Bool :=
  (sampleArrays m).foldl (fun acc j =>
    match acc.2.1.getD j none with
    | some t =>
      if t.outlier then acc
      else
        let s := acc.1.chargeRange c view (a + 1056 * j) 1056 part.val 2
        let r := s.viewRead c view (a + 1056 * j) 1056
        (r.1, acc.2.1.set j (some { t with wfmt := 6, s8 := false, exp := 0, bytes := r.2.1 }), acc.2.2 || r.2.2)
    | none => acc) (s, m.tiles, false)

/-! ## The sampler (R149) -/

/-- A change of the group that a sample was taken in, in the running work item or in the pre-empted one. -/
def sampleOwner (k : Core) (m : Sample) (taken : Bool) : Core :=
  let mark (x : Group) : Group := if taken then { x with samples := x.samples + 1 } else { x with skipped := x.skipped + 1 }
  let n : Nat := if taken then 1 else 0
  match k.saved with
  | some v =>
    if v.item.workItem = m.workItem ∧ v.item.context = m.context then
      { k with saved := some { v with groups := v.groups.modify m.group.val mark, sndTaken := satAdd v.sndTaken n,
                                      sndSkipped := satAdd v.sndSkipped (1 - n) } }
    else own k mark n
  | none => own k mark n
where
  /-- The running work item's counts; the group's alone when the work item has ended. -/
  own (k : Core) (mark : Group → Group) (n : Nat) : Core :=
    let k := k.modGroup m.group mark
    match k.item with
    | some i =>
      if i.workItem = m.workItem ∧ i.context = m.context then
        { k with sndTaken := satAdd k.sndTaken n, sndSkipped := satAdd k.sndSkipped (1 - n) }
      else k
    | none => k

/-- Whether the pass that a sample covers is still to be captured: a pair's low pass is outstanding. -/
def lowPending (k : Core) (m : Sample) : Bool :=
  m.pass.afmt == 1 && k.outstanding.any (fun e => match e.op with | .pass p _ => p.group == m.group && p.afmt == 2 | _ => false)

/-- The sounding record of a completed sample (Table 5.7). -/
def soundingRec (s : State) (c : CoreId) (m : Sample) (y16 : List W32) (yr : Option (List W32)) : SndRec :=
  let y := m.ys.flatten
  let bad := y.any (fun x => !(finite x))
  let pick (v : W32) : W32 := if bad then infWord else v
  let rAct := pick (rhoOf s.free y y16 y16)
  let rTot := match yr with | some r => pick (rhoOf (s.free + 1) y r r) | none => if bad then infWord else 0
  let rW := match yr with | some r => pick (rhoOf (s.free + 2) y16 r r) | none => if bad then infWord else 0
  let den := yr.getD y16
  let rmsRef := if den.any (fun x => !(finite x)) then Config.rhoOpen (s.free + 3)
    else rmsUnits den
  let flags : Nat := bn bad + 2 * bn (match yr with | some r => r.any (fun x => !(finite x)) | none => false) + 4 * bn m.pass.outlier
  let q0 := m.tag.toNat * 2 ^ 52 + c.val * 2 ^ 43 + m.group.val * 2 ^ 40 + m.pass.wfmt * 2 ^ 36 + bn m.pass.s8 * 2 ^ 35
    + m.pass.afmt * 2 ^ 33 + bn yr.isSome * 2 ^ 32 + m.rows * 2 ^ 24 + (sampleCols m).length * 2 ^ 16 + flags * 2 ^ 8 + 1
  let two (hi lo : W32) : W64 := hi ++ lo
  { tag := m.tag, core := c, ctx := m.context, flags := BitVec.ofNat 8 flags, rhoAct := rAct, rhoTot := rTot, hasRef := yr.isSome,
    words := [w64 q0, two rmsRef rAct, two rTot rW,
      two (maxErr (s.free + 4) y y16) (match yr with | some r => maxErr (s.free + 5) y r | none => 0),
      m.time, two (s.err.srcBuf (srcCore c)).seq m.workItem] }
where
  /-- The root mean square of finite words. -/
  rmsUnits (l : List W32) : W32 :=
    let n := sumSq (l.map (fun x => (fxInt x).getD 0))
    sqrtF32 n (l.length * 2 ^ 298)

/-- SAMPLE_COMPLETE: the sampler ends a captured sample and sends its record; a poisoned reference skips it. -/
def execSampleComplete (c : CoreId) (s : State) : Out :=
  .next (
    let k := s.core c
    match k.sampler.sample with
    | none => s
    | some m =>
      if m.captured = false ∨ k.mode = .off ∨ lowPending k m then s
      else
        let part := match s.ctx? m.context with | some x => x.part | none => 0
        let ref : W64 := match m.pass.scfg with | some q => q.ref | none => 0
        let free (s : State) : State := s.modCore c (fun k => { k with sampler := { k.sampler with sample := none } })
        let skip (s : State) : State := (free s).modCore c (fun k => sampleOwner k m false)
        let send (s : State) (yr : Option (List W32)) : State :=
          let r := soundingRec s c m (recompute m m.tiles) yr
          let b := s.err.srcBuf (srcCore c)
          let s := { s with err := s.err.setSrcBuf { b with seq := b.seq + 1 }, sched := { s.sched with sounding := s.sched.sounding ++ [r] } }
          ((free s).drew 6).modCore c (fun k => sampleOwner k m true)
        if ref = 0 then send s none
        else match remoteParts ref with
          | none => skip s
          | some (v, a) =>
            if s.rangeHeld c v a (1056 * 16) then s
            else
              let r := refTiles s c part m v a
              if r.2.2 then skip r.1 else send r.1 (some (recompute m r.2.1)))

/-- SAMPLER_FAULT: the sample is discarded; a second fault within 1 s fences the sampler. -/
def execSamplerFault (c : CoreId) (s : State) : Out :=
  .next (
    let k := s.core c
    match k.sampler.sample with
    | none => s
    | some m =>
      let again : Bool := match k.sampler.lastFault with | some t => decide (s.now ≤ t + 1000000000) | none => false
      let s := s.setCore c { k with sampler := { sample := none, lastFault := some s.now, fenced := k.sampler.fenced || again } }
      let s := s.log evSoundingFault (srcCore c) (locArray c m.group 0)
      if again then s.addFence 6 c.val 0 else s)

/-! ## The sounding table (R151-R153) -/

/-- The spread-view offset of a context's sounding table, when it has one. -/
def tableBase (x : Ctx) : Option Nat := if x.soundSize = 0 then none else some (bits x.soundTable 0 60)
/-- A word of spread view. -/
def spreadWord (s : State) (c : CoreId) (a : Nat) : State × W64 :=
  let r := s.viewRead c 1 a 8
  (r.1, BitVec.ofNat 64 (leNat r.2.1))
/-- Changes a word of spread view, atomically. -/
def spreadMod (s : State) (c : CoreId) (a : Nat) (f : W64 → W64) : State :=
  let r := s.viewRead c 1 a 8
  r.1.viewWrite c 1 a (natLe 8 (f (BitVec.ofNat 64 (leNat r.2.1))).toNat) r.2.2
/-- The low or high half of a word replaced. -/
def setHalf (hi : Bool) (v : W32) (w : W64) : W64 := if hi then v ++ w.setWidth 32 else (w.extractLsb' 32 32) ++ v
/-- The low or high half of a word. -/
def getHalf (hi : Bool) (w : W64) : W32 := if hi then w.extractLsb' 32 32 else w.setWidth 32
/-- Adds 1 to a half of a word. -/
def bumpHalf (hi : Bool) (w : W64) : W64 := setHalf hi (getHalf hi w + 1) w

/-- The bin of a figure (R152). -/
def rhoBin (r : W32) : Nat :=
  match f32v r with
  | .fin _ m e =>
    if m = 0 then 0
    else
      let l : Int := (m.log2 : Int) + e
      if l < -15 then 0 else if -1 ≤ l then 15 else (l + 16).toNat
  | _ => 15
/-- A judged entry: history, counts. -/
def judge (x : SndHist) (exceeds : Bool) (epoch : W32) (level : Nat) : SndHist :=
  let fresh := decide (x.entryEpoch ≠ epoch)
  { x with history := x.history <<< 1 ||| (if exceeds then 1 else 0), sinceRaise := (if fresh then 0 else x.sinceRaise) + 1,
           entryLevel := level, entryEpoch := epoch }
/-- The level arguments of a scheduler with one set. -/
def setLevel (l : List LevelArg) (x : LevelArg) : List LevelArg :=
  x :: l.filter (fun y => !(y.tower == x.tower && y.ctx == x.ctx && y.tag == x.tag))
/-- The 16 history bits of a tower placed in its word. -/
def histWord (t : TowerId) (h : BitVec 16) (w : W64) : W64 :=
  let sh := 16 * (t.val % 4)
  (w &&& ~~~(BitVec.ofNat 64 (0xFFFF * 2 ^ sh))) ||| BitVec.ofNat 64 (h.toNat * 2 ^ sh)

/-- Updates an entry with a record and, on an alarm, reports and escalates (Table 5.8, steps 2-5). -/
def soundingEntry (s : State) (t : TowerId) (x : Ctx) (r : SndRec) (base : Nat) : State :=
  let c : CoreId := Fin.ofNat 512 (64 * t.val)
  let e := base + 256 + 256 * r.tag.toNat
  let w := spreadWord s c (e + 32)
  let s := w.1
  let q4 := w.2
  let ba := rhoBin r.rhoAct
  let bt := rhoBin r.rhoTot
  let exceeds := decide (bits q4 52 4 ≤ (if r.hasRef then bt else ba)) || bit r.flags 0
  let s := spreadMod s c (e + 128 + 8 * (ba / 2)) (bumpHalf (decide (ba % 2 = 1)))
  let s := spreadMod s c (e + 192 + 8 * (bt / 2)) (bumpHalf (decide (bt % 2 = 1)))
  let s := spreadMod s c (e + 56) (fun w => (if exceeds then bumpHalf false else id) (bumpHalf true w))
  let s := spreadMod s c (e + 64) (fun _ => r.rhoTot ++ r.rhoAct)
  let s := spreadMod s c (base + 56) (· + 1)
  let level := bits q4 42 2
  let epoch : W32 := q4.setWidth 32
  let mine (h : SndHist) : Bool := h.tower == t && h.ctx == x.num && h.tag == r.tag
  let h0 := (s.sched.hists.find? mine).getD
    { tower := t, ctx := x.num, tag := r.tag, history := 0, sinceRaise := 15, entryLevel := level, entryEpoch := epoch }
  let h := judge h0 exceeds epoch level
  let s := { s with sched := { s.sched with hists := h :: s.sched.hists.filter (fun y => !(mine y)) } }
  let s := spreadMod s c (e + 40 + 8 * (t.val / 4)) (histWord t h.history)
  if bits q4 47 5 = 0 ∨ ones 16 h.history.toNat < bits q4 47 5 then s
  else
    let own : Owner := some (x.num, x.part)
    let s := s.log evPrecisionAlarm (srcTs t) 0 0 own ([r.tag.setWidth 64, w64 t.val, w64 level] ++ r.words)
    let s := spreadMod s c (e + 72) (bumpHalf true)
    let s := spreadMod s c (base + 72) (· + 1)
    if bit q4 46 = false ∨ bits q4 44 2 ≤ level ∨ h.sinceRaise < 16 then s
    else
      let q4' := (q4 &&& ~~~(0x00000C00FFFFFFFF#64)) ||| BitVec.ofNat 64 ((level + 1) * 2 ^ 42) ||| (epoch + 1).setWidth 64
      let s := spreadMod s c (e + 32) (fun _ => q4')
      let s := s.log evPrecisionEscalated (srcTs t) 0 0 own [r.tag.setWidth 64, w64 t.val, w64 (level + 1)]
      let h' := { h with history := 0, sinceRaise := 0, entryLevel := level + 1, entryEpoch := epoch + 1 }
      let s := { s with sched := { s.sched with
        hists := h' :: s.sched.hists.filter (fun y => !(mine y)),
        levels := setLevel s.sched.levels { tower := t, ctx := x.num, tag := r.tag, level := level + 1 } } }
      spreadMod s c (e + 40 + 8 * (t.val / 4)) (histWord t 0)

/-- SOUNDING_RECORD: the tower scheduler takes the oldest record of its tower. -/
def execSoundingRecord (t : TowerId) (s : State) : Out :=
  .next (
    if s.procUp (2 + t.val) = false then s
    else match s.sched.sounding.find? (fun r => towerOf r.core == t) with
      | none => s
      | some r =>
        let s := { s with sched := { s.sched with sounding := s.sched.sounding.erase r } }
        match s.ctx? r.ctx with
        | none => s
        | some x => match tableBase x with
          | none => s
          | some base =>
            let c : CoreId := Fin.ofNat 512 (64 * t.val)
            let h := spreadWord s c base
            let e := spreadWord h.1 c (base + 256 + 256 * r.tag.toNat)
            if bits h.2 16 16 ≤ r.tag.toNat ∨ e.2 = 0 then spreadMod h.1 c (base + 64) (· + 1)
            else soundingEntry e.1 t x r base)

/-- ESCALATION_SIGNAL: a scheduler reads the entry again and hands out its level's arguments from now on (Table 5.8, step 6). -/
def execEscalationSignal (t : TowerId) (ctx : CtxId) (tag : BitVec 12) (s : State) : Out :=
  .next (
    match s.procUp (2 + t.val), s.ctx? ctx with
    | true, some x => (match tableBase x with
      | none => s
      | some base =>
        let w := spreadWord s (Fin.ofNat 512 (64 * t.val)) (base + 256 + 256 * tag.toNat + 32)
        { w.1 with sched := { w.1.sched with
          levels := setLevel w.1.sched.levels { tower := t, ctx := ctx, tag := tag, level := bits w.2 42 2 } } })
    | _, _ => s)

/-- The arguments that a scheduler gives a work item as it fetches it: those of the level in force of the tag whose entry
names them (R154, step 6). -/
def levelArgs (s : State) (t : TowerId) (x : Ctx) (arg : W64) : W64 :=
  match tableBase x with
  | none => arg
  | some base =>
    let c : CoreId := Fin.ofNat 512 (64 * t.val)
    let mine := s.sched.levels.filter (fun l => l.tower == t && l.ctx == x.num)
    match mine.find? (fun l => (List.range 4).any (fun j =>
        let v := (spreadWord s c (base + 256 + 256 * l.tag.toNat + 8 * j)).2
        v == arg && v != 0)) with
    | some l =>
      let v := (spreadWord s c (base + 256 + 256 * l.tag.toNat + 8 * l.level)).2
      if v = 0 then arg else v
    | none => arg

/-! ## Context totals (R135) -/

/-- Adds a work item's counts to its context's header, and reports non-finite results and saturations. -/
def addTotals (s : State) (t : TowerId) (o : WorkOutcome) : State :=
  match s.ctx? o.item.context with
  | none => s
  | some x => match tableBase x with
    | none => s
    | some base =>
      let c : CoreId := Fin.ofNat 512 (64 * t.val)
      let h := spreadWord s c (base + 8)
      let s := [(16, o.nan), (24, o.inf), (32, o.subn), (40, o.nancode), (48, o.sat)].foldl
        (fun s (p : Nat × Nat) => if p.2 = 0 then s else spreadMod s c (base + p.1) (· + w64 p.2)) h.1
      let own : Owner := some (x.num, x.part)
      let det : List W64 := [o.item.workItem.setWidth 64, w64 o.nan, w64 o.inf, w64 o.subn, w64 o.nancode, w64 o.sat]
      let s := if bit h.2 0 ∧ 0 < o.nan + o.inf then s.log evArithNonfinite (srcTs t) 0 0 own det else s
      if bits h.2 32 32 ≠ 0 ∧ bits h.2 32 32 < o.sat then s.log evArithSaturation (srcTs t) 0 0 own det else s

end Sys2Proof.Machine
end

