-- ==== Sys2Proof/Machine/Slice.lean ====
section
/-! DEFINITION. Slice memory in service: transactions, refresh, bands, throttle, weirs, the eddy, atomics (R158-R177, R260). -/

namespace Sys2Proof.Machine

/-! ## Transactions (R158, R179, R180) -/

/-- The number of a bank within a channel: half and bank. -/
def bankNo (a : Coord) : Nat := 16 * a.half.val + a.bank.val
/-- A row is open from now on. -/
def Chan.openRow (x : Chan) (a : Coord) (now : Nat) : Chan :=
  { x with openRows := smSet x.openRows (bankNo a) a.row.val, openSince := smSet x.openSince (bankNo a) now }
/-- A transaction meets its row. -/
def State.touchRow (s : State) (c : CoreId) (a : Coord) : State := s.modChan c a.ch (fun x => x.openRow ((s.slice c).place a) s.now)
/-- A read transaction as the channel engine serves it; its data are the channel's last answer. -/
def serveRead (s : State) (c : CoreId) (a : Coord) : State :=
  let r := (s.touchRow c a).ctlRead c a
  r.1.modChan c a.ch (fun x => { x with lastRead := some (a, r.2.data, r.2.poison) })
/-- A held access served. -/
def serveHeld (c : CoreId) (s : State) (h : Held) : State :=
  match h with
  | .read a => serveRead s c a
  | .write a d m p => s.ctlWrite c a d m p
/-- The hold queue of a channel, served in arrival order. -/
def drainHeld (s : State) (c : CoreId) (ch : ChanId) : State :=
  let l := (s.chan c ch).heldQ
  l.foldl (serveHeld c) (s.modChan c ch (fun x => { x with heldQ := [] }))
/-- A new access to a held channel joins the hold queue of 256 entries; a full queue admits nothing (R180). -/
def holdAccess (s : State) (c : CoreId) (ch : ChanId) (h : Held) : State :=
  if (s.chan c ch).heldQ.length < 256 then s.modChan c ch (fun x => { x with heldQ := x.heldQ ++ [h] }) else s

/-- CHANNEL_READ: one block. A segment on the bank pair makes it wait for the boundary (R256). -/
def execChannelRead (c : CoreId) (a : Coord) (s : State) : Out :=
  .next (
    if (s.chan c a.ch).lost then serveRead s c a
    else if s.chanHolds c a.ch then holdAccess s c a.ch (.read a)
    else if s.pairHeld c a then s
    else serveRead s c a)
/-- CHANNEL_WRITE: bytes of one block; a posted write completes as the engine accepts it. -/
def execChannelWrite (c : CoreId) (a : Coord) (data : BlockData) (mask : BitVec 32) (poison : Bool) (s : State) : Out :=
  .next (
    if (s.chan c a.ch).lost then s
    else if s.chanHolds c a.ch then holdAccess s c a.ch (.write a data mask poison)
    else if s.pairHeld c a then s
    else (s.touchRow c a).ctlWrite c a data mask poison)
/-- ROW_CLOSE_TIMER: 64 ns after the last transaction of an open row. -/
def execRowCloseTimer (c : CoreId) (ch : ChanId) (half : Fin 2) (bank : Fin 16) (s : State) : Out :=
  .next (
    let n := 16 * half.val + bank.val
    match smGet (s.chan c ch).openSince n with
    | some t =>
      if t + 64 ≤ s.now then
        s.modChan c ch (fun x => { x with openRows := smErase x.openRows n, openSince := smErase x.openSince n })
      else s
    | none => s)

/-! ## Refresh (R162, R163, R260) -/

/-- Units of a channel: those of its two layers (R239). -/
def chanUnits (ch : ChanId) : List UnitId := (List.range 16).map (fun i => Fin.ofNat 64 (16 * ch.val + i))
/-- Whether a native segment runs on a channel. -/
def nativeSegment (s : State) (c : CoreId) (ch : ChanId) : Bool :=
  (chanUnits ch).any (fun u => let x := s.unit c u; x.segment.isSome && !x.fixed && x.st == .running)
/-- Issues the owed refresh commands back to back; each refreshes one row index in all 32 banks, whose rows close. -/
def issueOwed (s : State) (c : CoreId) (ch : ChanId) : State :=
  s.modChan c ch (fun x =>
    if x.owed = 0 then x
    else { x with refreshRow := (x.refreshRow + x.owed) % 4224, owed := 0, openRows := [], openSince := [] })
/-- Issues what is owed once no native segment runs on the channel. -/
def settleRefresh (s : State) (c : CoreId) (ch : ChanId) : State := if nativeSegment s c ch then s else issueOwed s c ch
/-- REFRESH_INTERVAL: one command more is owed, at most 8, and issued unless a native segment postpones it. -/
def execRefreshInterval (c : CoreId) (ch : ChanId) (s : State) : Out :=
  .next (
    if (s.chan c ch).lost ∨ (s.slice c).selfRefresh then s
    else settleRefresh (s.modChan c ch (fun x => { x with owed := Nat.min 8 (x.owed + 1) })) c ch)

/-! ## Bands and throttle steps (R161, R164-R166) -/

/-- A layer's measured temperature and the temperature predicted for it. -/
def layerTP (s : State) (c : CoreId) (l : LayerId) : Int × Int := (prot s (.layer c l), predP s (.layer c l))
/-- The band that the channel takes from its layers. -/
def chanBand (k : Slice) (ch : ChanId) : Nat := ((chanLayers ch).map (fun l => (k.layer l).band)).foldl Nat.max 0
/-- The channel of a layer. -/
def layerChan (l : LayerId) : ChanId := Fin.ofNat 4 (l.val / 2)
/-- Units of a channel stop in state 3 while a layer of it is critical, and resume afterwards (Table 9.9). -/
def stopUnits (s : State) (c : CoreId) (ch : ChanId) : State :=
  (chanUnits ch).foldl (fun s u =>
    if (s.unit c u).st = .running ∨ (s.unit c u).st = .waiting then s.modUnit c u (fun x => { x with st := .suspended }) else s) s
/-- Units of a channel go on where a critical layer or an owed refresh stopped them. -/
def resumeUnits (s : State) (c : CoreId) (ch : ChanId) : State :=
  (chanUnits ch).foldl (fun s u =>
    if (s.unit c u).st = .suspended then s.modUnit c u (fun x => { x with st := .running }) else s) s
/-- BAND_CHANGE: a layer's band rises at once, and falls after 10 ms at least 2 °C below its lower boundary. -/
def execBandChange (c : CoreId) (l : LayerId) (s : State) : Out :=
  .next (
    let x := (s.slice c).layer l
    let tp := layerTP s c l
    let floor := if (s.sensor (.layer c l)).st = 2 then 1 else 0
    let want := Nat.max floor (bandOf (hotter tp.1 tp.2))
    let cool : Bool := match x.below with | some t => decide (t + 10000000 ≤ s.now) | none => false
    let band := if x.band < want then want else if cool ∧ floor < x.band then x.band - 1 else x.band
    if band = x.band then s
    else
      let ch := layerChan l
      let was := chanBand (s.slice c) ch
      let s := s.modLayer c l (fun y => { y with band := band, below := none })
      let s := s.modChan c ch (fun y => { y with band := chanBand (s.slice c) ch })
      let s := if band = 3 then stopUnits s c ch else if was = 3 ∧ chanBand (s.slice c) ch ≠ 3 then resumeUnits s c ch else s
      let s := if band = 3 then s.log memLayerCritical (srcSlice c) (locLayer c l) 0 none [w64 l.val, i64 tp.1] else s
      if was = 3 ∧ s.chanHolds c ch = false then drainHeld s c ch else s)

/-- The refresh interval of a band in ps (Table 6.5). -/
def refreshPs (band : Nat) : Nat := match band with | 0 => 3900000 | 1 => 1950000 | 2 => 975000 | _ => 487500
/-- The part of channel time that a throttle step leaves [%]. -/
def stepPercent (n : Nat) : Nat := match n with | 0 => 100 | 1 => 75 | 2 => 50 | _ => 25
/-- Whether a repair moves rows of a channel. -/
def repairsOn (k : Slice) (ch : ChanId) : Bool := k.repairs.any (fun e => !e.complete && decide (unitRow e.unit 0 / 4224 / 32 = ch.val))
/-- The data time of a channel in one weir window, in ps (R169). -/
def chanPs (s : State) (c : CoreId) (ch : ChanId) (throttled : Bool) : Nat :=
  let k := s.slice c
  let x := k.chan ch
  if x.lost ∨ k.selfRefresh ∨ x.retrain.isSome then 0
  else
    let r := refreshPs x.band
    let t := 1024000 * (r - 117000) / r
    let pace := Nat.max 1 s.mem.pace.toNat * 1000000
    let t := if repairsOn k ch then t * (pace - 110000) / pace else t
    if throttled then t * stepPercent x.step / 100 else t
/-- All channels. -/
def allChans : List ChanId := [0, 1, 2, 3]
/-- Data time used by a partition in a class, over all channels or over those that a test picks. -/
def usedPs (l : List (Nat × Nat × Nat)) (part cls : Nat) (ok : Nat → Bool) : Nat :=
  ((l.filter (fun x => x.1 == part && x.2.1 / 4 == cls && ok (x.2.1 % 4))).map (fun x => x.2.2)).sum
/-- The partitions whose protected traffic a slice would serve below its floor at its channels' throttle steps. -/
def floorsHeld (s : State) (c : CoreId) : List Nat :=
  let cap := (allChans.map (fun ch => chanPs s c ch true)).sum
  (List.range 16).filter (fun p =>
    let w := s.mem.weir.getD p { ceiling := 0, share := 0, protFloor := 0, bgShare := 0 }
    w.protFloor != 0 && decide (w.protFloor.toNat * cap < 64 * usedPs (s.slice c).weirUse p 0 (fun _ => true)))
/-- THROTTLE_STEP: a step rises with either layer's temperature, and falls after 10 ms 1 °C below its threshold. -/
def execThrottleStep (c : CoreId) (ch : ChanId) (s : State) : Out :=
  .next (
    let x := s.chan c ch
    let t1 := s.mem.t1.toNat
    let t := (chanLayers ch).foldl (fun acc l => hotter acc (layerTP s c l).1) (-1000)
    let p := (chanLayers ch).foldl (fun acc l => hotter acc (layerTP s c l).2) (-1000)
    let want := stepOf t1 (if s.mem.predict then hotter t p else t)
    let cool : Bool := match x.stepLow with | some y => decide (y + 10000000 ≤ s.now) | none => false
    if x.lost then s
    else if x.step < want then
      let s := s.modChan c ch (fun y => { y with step := want, stepLow := none })
      match floorsHeld s c with
      | [] => s
      | l => (s.modChan c ch (fun y => { y with holdSince := some s.now })).log memThrottleProtected (srcSlice c) (locChan c ch) 0 none
          ([w64 want, w64 l.length] ++ l.map w64)
    else if cool ∧ 0 < x.step then s.modChan c ch (fun y => { y with step := y.step - 1, stepLow := none, holdSince := none })
    else s)
/-- PROTECTED_HOLD_END: the MP releases the hold, or hold_us passes. -/
def execProtectedHoldEnd (c : CoreId) (ch : ChanId) (mpRelease : Bool) (s : State) : Out :=
  .next (
    match (s.chan c ch).holdSince with
    | some t =>
      if (mpRelease ∧ s.mpUp) ∨ t + s.mem.holdUs.toNat * 1000 ≤ s.now then s.modChan c ch (fun y => { y with holdSince := none })
      else s
    | none => s)

/-! ## Weirs (R169-R172) -/

/-- One partition in the sharing of a window: shares in ps, demand by class, what it was granted. -/
structure WeirRow where
  share : Nat
  ceiling : Nat
  floor : Nat
  bg : Nat
  weight : Nat
  prot : Nat
  fore : Nat
  back : Nat
  backOpen : Nat
  got : Nat
  deriving DecidableEq, Repr
/-- Grants a row the least of a wish, its room below the ceiling and what is left. -/
def WeirRow.take (r : WeirRow) (wish left : Nat) : WeirRow × Nat :=
  let n := Nat.min wish (Nat.min (r.ceiling - r.got) left)
  ({ r with got := r.got + n }, n)
/-- A stage over the rows in ascending order: what each row wishes, and how its demand falls. -/
def weirStage (wish : WeirRow → Nat) (fall : WeirRow → Nat → WeirRow) : Nat → List WeirRow → Nat × List WeirRow
  | left, [] => (left, [])
  | left, r :: t =>
    let x := r.take (wish r) left
    let y := weirStage wish fall (left - x.2) t
    (y.1, fall x.1 x.2 :: y.2)
/-- The time left shared in proportion to weight among rows that still want some, over a number of rounds. -/
def weirShare (want : WeirRow → Nat) (fall : WeirRow → Nat → WeirRow) : Nat → Nat → List WeirRow → Nat × List WeirRow
  | 0, left, l => (left, l)
  | n + 1, left, l =>
    let open_ (r : WeirRow) : Bool := decide (0 < want r) && decide (r.got < r.ceiling)
    let w := ((l.filter open_).map (·.weight)).sum
    if w = 0 ∨ left = 0 then (left, l)
    else
      let x := weirStage (fun r => if open_ r then Nat.min (want r) (left * r.weight / w) else 0) fall left l
      weirShare want fall n x.1 x.2
/-- The five stages of R170 over a capacity: what each partition and the system weir are granted. -/
def weirStages (cap floorCap sys : Nat) (rows : List WeirRow) : List Nat :=
  let s1 := weirStage (fun r => Nat.min r.prot (r.floor * floorCap / Nat.max 1 cap)) (fun r n => { r with prot := r.prot - n }) cap rows
  let s2 := weirStage (fun r => Nat.min (r.fore + r.prot) (r.share - r.got))
    (fun r n => { r with fore := r.fore - n, prot := r.prot - (n - r.fore) }) s1.1 s1.2
  let sysGot := Nat.min (Nat.min sys (cap / 64)) s2.1
  let s3 := weirStage (fun r => Nat.min r.backOpen r.bg) (fun r n => { r with back := r.back - n }) (s2.1 - sysGot) s2.2
  let s4 := weirShare (fun r => r.fore + r.prot) (fun r n => { r with fore := r.fore - n, prot := r.prot - (n - r.fore) }) 17 s3.1 s3.2
  let sysRow : WeirRow := { share := 0, ceiling := 8 * cap / 64, floor := 0, bg := 0, weight := 1, prot := 0, fore := 0,
                            back := sys - sysGot, backOpen := 0, got := sysGot }
  let s5 := weirShare (fun r => r.back) (fun r n => { r with back := r.back - n }) 17 s4.1 (s4.2 ++ [sysRow])
  s5.2.map (·.got)
/-- The grants of a window, from the demand that the window before it left. -/
def weirGrants (s : State) (c : CoreId) : List Nat :=
  let k := s.slice c
  let cap := (allChans.map (fun ch => chanPs s c ch true)).sum
  let floorCap := (allChans.map (fun ch => chanPs s c ch ((k.chan ch).holdSince.isNone))).sum
  let cool (n : Nat) : Bool := (k.chans.getD n Chan.reset).step == 0
  let row (p : Nat) : WeirRow :=
    let w := s.mem.weir.getD p { ceiling := 0, share := 0, protFloor := 0, bgShare := 0 }
    { share := w.share.toNat * cap / 64, ceiling := w.ceiling.toNat * cap / 64, floor := w.protFloor.toNat * cap / 64,
      bg := w.bgShare.toNat * cap / 64, weight := Nat.max 1 w.share.toNat, prot := usedPs k.weirUse p 0 (fun _ => true),
      fore := usedPs k.weirUse p 1 (fun _ => true), back := usedPs k.weirUse p 2 (fun _ => true),
      backOpen := usedPs k.weirUse p 2 cool, got := 0 }
  weirStages cap floorCap (usedPs k.weirUse 16 2 (fun _ => true)) ((List.range 16).map row)
/-- Charges a unit's segment so far, a 16th of its duration, to its partition in its launch's class (R25, R170). -/
def chargeSegment (s : State) (c : CoreId) (u : UnitId) : State :=
  let x := s.unit c u
  match x.segment with
  | some _ =>
    (s.charge c x.part.val ((if x.background then 8 else 4) + u.val / 16) ((s.now - x.chargedAt) * 1000 / 16)).modUnit c u
      (fun x => { x with chargedAt := s.now })
  | none => s
/-- WEIR_WINDOW: a window of 1.024 µs begins with the configuration in force; meters start anew (R170, R259). -/
def execWeirWindow (c : CoreId) (s : State) : Out :=
  .next (
    let s := (s.slice c).units.foldl (fun (s : State) x => chargeSegment s c (Fin.ofNat 64 x.1)) s
    let g := weirGrants s c
    s.modSlice c (fun k => { k with
      weirGrant := g, weirDemand := k.weirUse, weirUse := [],
      layers := k.layers.map (fun (l : Layer) => ({ l with meter := 0, bSuspended := false } : Layer)) }))

/-- Whether a partition has a work item running or queued in a core (R172). -/
def partBusy (s : State) (p : Nat) : Bool :=
  s.cores.any (fun x =>
    let mine (i : WorkItem) : Bool := i.partition.val == p
    (match x.2.item with | some i => mine i | none => false) || x.2.localQ.any mine
    || (match x.2.saved with | some v => mine v.item | none => false))
/-- The staged configuration. -/
def weirStaged (s : State) : List WeirCfg :=
  s.mem.weir.zipIdx.map (fun (w, p) => match s.mem.weirShadow.getD p none with | some x => x | none => w)
/-- The first condition that a staged configuration breaks: partition and field (0 bg_share, 1 prot_floor, 2 share, 3 ceiling). -/
def weirInvalid (s : State) (l : List WeirCfg) : Option (Nat × Nat) :=
  (l.zipIdx.findSome? (fun (w, p) =>
    let sum := ((l.take (p + 1)).map (fun (x : WeirCfg) => x.share.toNat)).sum
    if w.share.toNat < w.bgShare.toNat then some (p, 0)
    else if w.share.toNat < w.protFloor.toNat then some (p, 1)
    else if w.ceiling.toNat < w.share.toNat then some (p, 2)
    else if 64 < w.ceiling.toNat then some (p, 3)
    else if 63 < sum then some (p, 2)
    else if w.ceiling = 0 ∧ partBusy s p then some (p, 3)
    else none))
/-- A write of 1 to WEIR_COMMIT.go (R172): every slice takes the set at its next window. -/
def weirCommit (s : State) (src : Source) : State :=
  let l := weirStaged s
  let none16 := List.replicate 16 none
  match weirInvalid s l with
  | some (p, f) =>
    ({ s with mem := { s.mem with weirShadow := none16, cfgError := true } }).log weirCfgInvalid src 0 0 none [w64 p, w64 f]
  | none => { s with mem := { s.mem with weir := l, weirShadow := none16 } }

/-! ## Eddy and atomics (R173-R177) -/

/-- EDDY_WRITE: a narrow write through the eddy. -/
def execEddyWrite (c : CoreId) (a : Coord) (data : BlockData) (mask : BitVec 32) (s : State) : Out :=
  .next (if s.chanHolds c a.ch ∨ s.pairHeld c a then s else s.ctlWrite c a data mask false)
/-- EDDY_FLUSH: one entry. -/
def execEddyFlush (c : CoreId) (ch : ChanId) (idx : Fin 16) (s : State) : Out :=
  .next (
    match (s.chan c ch).eddy[idx.val]? with
    | some e => if s.chanHolds c ch ∨ s.pairHeld c (idxCoord e.blk) then s else s.flushEntry c (idxCoord e.blk) e
    | none => s)
/-- EDDY_AGE_TIMEOUT: entries 2 µs old. -/
def execEddyAgeTimeout (c : CoreId) (ch : ChanId) (s : State) : Out :=
  .next (
    if s.chanHolds c ch then s
    else s.flushWhere c ch (fun e => decide (e.stamp + 2000 ≤ s.now) && !(s.pairHeld c (idxCoord e.blk))))

/-- An atomic on a word of a block, in an eddy entry: the old value is the channel's answer (R176). -/
def atomicOp (c : CoreId) (a : Coord) (word : Fin 8) (wide : Bool) (f : W64 → Option W64) (s : State) : State :=
  if s.chanHolds c a.ch ∨ s.pairHeld c a then s
  else
    let r := s.ctlRead c a
    let s := r.1
    let w := if wide then word.val / 2 * 2 else word.val
    let n := if wide then 64 else 32
    let old : W64 := BitVec.ofNat 64 (bits r.2.data (32 * w) n)
    let s := s.modChan c a.ch (fun x => { x with lastRead := some (a, old.setWidth 256, r.2.poison) })
    match f old with
    | none => s
    | some v =>
      if (s.chan c a.ch).lost then s
      else
        let d : BlockData := BitVec.ofNat 256 ((v.toNat % 2 ^ n) * 2 ^ (32 * w))
        let mask : BitVec 32 := BitVec.ofNat 32 ((2 ^ (n / 8) - 1) * 2 ^ (4 * w))
        (((s.unitForgets c a).pageWritten c a)).eddyPut c a d mask
/-- ATOMIC_ADD. -/
def execAtomicAdd (c : CoreId) (a : Coord) (word : Fin 8) (wide : Bool) (val : W64) (s : State) : Out :=
  .next (atomicOp c a word wide (fun old => some (old + val)) s)
/-- ATOMIC_CAS: the new value where the old one is the expected one. -/
def execAtomicCas (c : CoreId) (a : Coord) (word : Fin 8) (wide : Bool) (expect new : W64) (s : State) : Out :=
  .next (atomicOp c a word wide (fun old => if old = (if wide then expect else expect &&& 0xFFFFFFFF) then some new else none) s)

end Sys2Proof.Machine
end

