-- ==== Sys2Proof/Machine/Repair.lean ====
section
/-! DEFINITION. Retrains, repairs, self-refresh, restores, scrub and the code test window (R178-R189, R200, R205-R208). -/

namespace Sys2Proof.Machine

/-! ## Retrain (R178-R182) -/

/-- The hotter layer's temperature of a channel. -/
def chanTemp (s : State) (c : CoreId) (ch : ChanId) : Int :=
  (chanLayers ch).foldl (fun acc l => hotter acc (prot s (.layer c l))) (-1000)
/-- Whether a channel has drifted from its last training (R178). -/
def drifted (s : State) (c : CoreId) (ch : ChanId) : Bool :=
  decide (4 * s.mem.drift.toNat ≤ (chanTemp s c ch - (s.chan c ch).trainTemp).natAbs)
/-- Whether the condition of a trigger holds. -/
def retrainDue (s : State) (c : CoreId) (ch : ChanId) (cause : RetrainCause) : Bool :=
  match cause with
  | .drift => drifted s c ch
  | .laneErrors => (s.chan c ch).laneErr.any (fun x => laneFault (s.chan c ch).laneErr x.1 s.now)
  | .cmdParity => true
  | .mpRequest => s.mpUp
/-- The number of a cause in its record. -/
def retrainNo : RetrainCause → Nat
  | .drift => 0
  | .laneErrors => 1
  | .cmdParity => 2
  | .mpRequest => 3
/-- A retrain starts, or is refused as the fourth within 60 s (R182). -/
def startRetrain (s : State) (c : CoreId) (ch : ChanId) (cause : RetrainCause) : State :=
  let times := (s.chan c ch).retrainTimes.filter (fun t => decide (s.now < t + 60000000000))
  if 3 ≤ times.length then
    (s.modChan c ch (fun x => { x with untrainable := true })).log memRetrainFail (srcSlice c) (locChan c ch) 0 none [w64 1]
  else
    let s := s.modChan c ch (fun x => { x with
      retrain := some { cause := cause, since := s.now }, retrainTimes := s.now :: times })
    let s := (chanUnits ch).foldl (fun s u =>
      if (s.unit c u).st = .waiting then s.modUnit c u (fun x => { x with st := .paused }) else s) s
    s.logOpen memRetrainStart (srcSlice c) (locChan c ch) 0 none [w64 (retrainNo cause)]
/-- The channel of a slice that retrains. -/
def retraining (s : State) (c : CoreId) : Bool := allChans.any (fun ch => (s.chan c ch).retrain.isSome)
/-- A trigger: a second one in the slice waits; one that meets an open span follows Table 17.6. -/
def retrainTrigger (s : State) (c : CoreId) (ch : ChanId) (cause : RetrainCause) : State :=
  let x := s.chan c ch
  if x.lost ∨ x.untrainable ∨ (s.slice c).selfRefresh then s
  else if retraining s c then
    if x.retrain.isSome ∨ x.retrainPending.contains cause then s
    else s.modChan c ch (fun x => { x with retrainPending := x.retrainPending ++ [cause] })
  else match recoveryTurn s.err (locChan c ch) memRetrainStart.severity with
    | .queue => { s with err := s.err.queueRecovery (locChan c ch) (.retrain c ch cause) }
    | .preempt => startRetrain { s with err := s.err.haltSpan (locChan c ch) } c ch cause
    | .run => startRetrain s c ch cause
/-- RETRAIN_TRIGGER. -/
def execRetrainTrigger (c : CoreId) (ch : ChanId) (cause : RetrainCause) (s : State) : Out :=
  .next (if retrainDue s c ch cause then retrainTrigger s c ch cause else s)

/-- The spare group of a connection: 12 of 24 data connections, 12 the command connections (R157). -/
def spareGroup (n : Nat) : Nat := if n < 288 then n / 24 else 12
/-- Spares left in a group. -/
def Chan.spare (x : Chan) (g : Nat) : Nat := if g < 12 then x.sparesData.getD g 0 else x.spareCmd
/-- A connection is replaced by its group's spare; false when none is left. -/
def useSpare (s : State) (c : CoreId) (ch : ChanId) (n : Nat) : State × Bool :=
  let g := spareGroup n
  let left := (s.chan c ch).spare g
  if left = 0 then (s, false)
  else
    let s := s.modChan c ch (fun x =>
      if g < 12 then { x with sparesData := x.sparesData.set g (left - 1) } else { x with spareCmd := left - 1 })
    (s.log memSpareUsed (srcSlice c) (locChan c ch) 0 none [w64 n, w64 (left - 1)], true)
/-- A reserve row of the code test window that a retrain may have overwritten: its contents are free values (R207). -/
def trainOverwrites (s : State) (c : CoreId) (ch : ChanId) : State :=
  if s.mem.ctEnable ∧ s.mem.ctCore.toNat = c.val ∧ bits s.mem.ctLoc 26 2 = ch.val ∧ Config.choice s.free % 2 = 1 then
    let base : Coord := { ch := ch, half := Fin.ofNat 2 (bits s.mem.ctLoc 25 1), bank := Fin.ofNat 16 (bits s.mem.ctLoc 21 4),
                          row := Fin.ofNat 4224 (bits s.mem.ctLoc 8 13), blk := 0 }
    let s1 := (List.range 64).foldl (fun s i =>
      let v := Config.trainPattern s.free i
      s.setBlk c { base with blk := Fin.ofNat 64 i } (v.setWidth 256) (BitVec.ofNat 32 (bits v 256 32))) s
    ({ s1 with mem := { s1.mem with ctOverwritten := true } }).drew 1
  else s.drew 1
/-- Paused units of a channel go on. -/
def releaseUnits (s : State) (c : CoreId) (ch : ChanId) : State :=
  (chanUnits ch).foldl (fun s u =>
    if (s.unit c u).st = .paused then s.modUnit c u (fun x => { x with st := .running }) else s) s
/-- The next retrain that waits in a slice starts. -/
def nextRetrain (s : State) (c : CoreId) : State :=
  match allChans.find? (fun ch => !(s.chan c ch).retrainPending.isEmpty) with
  | some ch =>
    (match (s.chan c ch).retrainPending with
      | r :: rest => startRetrain (s.modChan c ch (fun x => { x with retrainPending := rest })) c ch r
      | [] => s)
  | none => s
/-- RETRAIN_COMPLETE: failing connections take their spares; without one left the channel is unreadable (R182). -/
def execRetrainComplete (c : CoreId) (ch : ChanId) (failing : List (Fin 308)) (s : State) : Out :=
  .next (
    match (s.chan c ch).retrain with
    | none => s
    | some r =>
      let u := failing.foldl (fun (acc : State × Bool × Nat) n =>
        let x := useSpare acc.1 c ch n.val
        (x.1, acc.2.1 && x.2, acc.2.2 + (if x.2 then 1 else 0))) (s, true, 0)
      let s := u.1.modChan c ch (fun x => { x with
        retrain := none, laneErr := [], trainTemp := chanTemp u.1 c ch, untrainable := x.untrainable || !u.2.1 })
      let s := trainOverwrites s c ch
      if u.2.1 then
        let s := if s.chanHolds c ch then s else drainHeld s c ch
        let s := releaseUnits s c ch
        let s := s.log memRetrainDone (srcSlice c) (locChan c ch) 0 none [w64 (s.now - r.since), w64 u.2.2]
        nextRetrain (s.closeSpan (locChan c ch) memRetrainStart) c
      else
        nextRetrain ((s.log memRetrainFail (srcSlice c) (locChan c ch) 0 none [w64 0]).closeSpan (locChan c ch) memRetrainStart) c)

/-! ## Repair (R183-R187, R204) -/

/-- The number of the bank pair's bank of a row number: channel, half and bank. -/
def rowBank (n : Nat) : Nat := n / 4224
/-- Reserve rows in use. -/
def usedReserve (k : Slice) : List Nat := k.repairs.flatMap (·.targets)
/-- The row that the code test window holds open. -/
def testRow (s : State) (c : CoreId) : Option Nat :=
  if s.mem.ctEnable ∧ s.mem.ctCore.toNat = c.val then
    some (rowId { ch := Fin.ofNat 4 (bits s.mem.ctLoc 26 2), half := Fin.ofNat 2 (bits s.mem.ctLoc 25 1),
                  bank := Fin.ofNat 16 (bits s.mem.ctLoc 21 4), row := Fin.ofNat 4224 (bits s.mem.ctLoc 8 13), blk := 0 })
  else none
/-- The reserve rows of a list of banks. -/
def reserveOf (banks : List Nat) : List Nat := banks.flatMap (fun b => (List.range 128).map (fun i => b * 4224 + 4096 + i))
/-- Banks that a repair of a unit takes its reserve rows from, in order (Table 6.12). -/
def repairBanks (u : RepairUnit) : List Nat :=
  let own := rowBank (unitRow u 0)
  match u with
  | .row _ _ _ _ => [own]
  | _ =>
    let others := (List.range 128).filter (fun b => b != own)
    others.filter (fun b => b / 32 == own / 32) ++ others.filter (fun b => b / 32 != own / 32)
/-- The first n of a list, when it has as many. -/
def takeAll (n : Nat) (l : List Nat) : Option (List Nat) := if n ≤ l.length then some (l.take n) else none
/-- The number and first row of a unit in its records: kind 0 row, 1 sub-array, 2 bank. -/
def unitWords (u : RepairUnit) : List W64 :=
  [w64 (match u with | .row _ _ _ _ => 0 | .subArray _ _ _ _ => 1 | .bank _ _ _ => 2), w64 (unitRow u 0)]
/-- The location of a unit's first block. -/
def locRow (c : CoreId) (n : Nat) : W64 := locBlock c (rowCoord n 0)
/-- The MP allocates reserve rows and enters a repair in the map, or reports that too few are free. -/
def startRepair (s : State) (c : CoreId) (u : RepairUnit) : State :=
  let k := s.slice c
  let n := unitRows u
  let lost := (List.range 128).filter (fun b => (k.chans.getD (b / 32) Chan.reset).lost)
  let free := (reserveOf ((repairBanks u).filter (fun b => !(lost.contains b)))).filter (fun r => !((usedReserve k).contains r))
  let spared := match testRow s c with | some t => free.filter (· != t) | none => free
  let l := locRow c (unitRow u 0)
  let enter (s : State) (ts : List Nat) : State :=
    let s := s.modSlice c (fun k => { k with repairs := k.repairs ++
      [{ unit := u, targets := ts, moved := 0, poisoned := 0, complete := false, lastStep := s.now }] })
    s.logOpen memRepairStart srcMp l 0 none (unitWords u ++ [w64 (ts.headD 0)])
  if 64 ≤ k.repairs.length then s.log memRepairNoReserve srcMp l 0 none (unitWords u ++ [w64 spared.length])
  else match takeAll n spared with
    | some ts => enter s ts
    | none => match takeAll n free with
      | some ts => enter { s with mem := { s.mem with ctEnable := false, ctLost := true } } ts
      | none => s.log memRepairNoReserve srcMp l 0 none (unitWords u ++ [w64 free.length])
/-- Whether a unit's repair is in the map. -/
def inRepair (k : Slice) (u : RepairUnit) : Bool := k.repairs.any (fun e => e.unit == u)
/-- REPAIR_START: a marked unit's repair, or one that the MP commands; one that meets an open span follows Table 17.6. -/
def execRepairStart (c : CoreId) (u : RepairUnit) (s : State) : Out :=
  .next (
    let l := locRow c (unitRow u 0)
    let ch : ChanId := Fin.ofNat 4 (rowBank (unitRow u 0) / 32)
    if s.mpUp = false ∨ inRepair (s.slice c) u ∨ (s.chan c ch).lost then s
    else match recoveryTurn s.err l memRepairStart.severity with
      | .queue => { s with err := s.err.queueRecovery l (.repair c u) }
      | .preempt => startRepair { s with err := s.err.haltSpan l } c u
      | .run => startRepair s c u)

/-- A change of the map waits its turn (R223). -/
def State.queueEpoch (s : State) (x : EpochChange) : State := { s with map := { s.map with queue := s.map.queue ++ [x] } }
/-- A change that moves no line. -/
def plainChange (cause : EpochCause) : EpochChange where
  cause := cause
  tower := none
  changed := []
  subsets := []
  unmapped := []
  donors := 0
  migrated := 0
  lines := 0
/-- Marks of rows within a unit are done with. -/
def clearMarks (k : Slice) (u : RepairUnit) : Slice :=
  let hit (n : Nat) : Bool := (unitPlace u n).isSome
  { k with rowMarks := k.rowMarks.filter (fun x => !(hit x.1)), subMarks := k.subMarks.filter (fun x => !(hit (x.1 / 8 * 4224 + x.1 % 8 * 512))),
           bankMarks := k.bankMarks.filter (fun x => !(hit (x.1 * 4224) && unitRows u == 4096)) }
/-- Copies one row: each block is read with check and correction and written with fresh check bits. -/
def copyRow (s : State) (c : CoreId) (src dst : Nat) : State × Nat :=
  (List.range 64).foldl (fun (acc : State × Nat) i =>
    let blk : Fin 64 := Fin.ofNat 64 i
    let a := rowCoord src blk
    let p := ((acc.1).slice c).place a
    let bad : Bool := match (acc.1).ptypeAt c a with
      | .activation => !(flagPoisoned ((acc.1).blkCheck c p)) && failingRows ((acc.1).blkData c p) ((acc.1).blkCheck c p) != 0
      | _ => decodeFull ((acc.1).blkData c p) ((acc.1).blkCheck c p) == .uncorrectable
    let r := (acc.1).bankRead c a
    let k := if (r.1).ptypeAt c a = .activation then actWord r.2.data r.2.poison
      else if r.2.poison then poisonWord r.2.data else checkWord r.2.data
    ((r.1).setBlk c (rowCoord dst blk) r.2.data k, acc.2 + (if bad then 1 else 0))) (s, 0)
/-- REPAIR_ROW_STEP: one row more of a repair moves, once per pace interval. -/
def execRepairRowStep (c : CoreId) (entry : Fin 64) (s : State) : Out :=
  .next (
    match (s.slice c).repairs[entry.val]? with
    | none => s
    | some e =>
      let src := unitRow e.unit e.moved
      let a := rowCoord src 0
      let halted : Bool := match s.err.spanOf (locRow c src) with | some p => p.halted | none => false
      if e.complete ∨ (s.chan c a.ch).lost ∨ s.chanHolds c a.ch ∨ s.pairHeld c a ∨ halted
        ∨ (0 < e.moved ∧ s.now < e.lastStep + s.mem.pace.toNat * 1000) then s
      else
        let s := s.flushWhere c a.ch (fun x => x.blk / 64 == blkIndex c a / 64)
        let r := copyRow s c src (e.targets.getD e.moved 0)
        let e' := { e with moved := e.moved + 1, poisoned := e.poisoned + r.2, lastStep := s.now,
                           complete := decide (unitRows e.unit ≤ e.moved + 1) }
        let s := r.1.modSlice c (fun k => { k with repairs := k.repairs.set entry.val e' })
        if e'.complete then
          let s := (s.modSlice c (fun k => clearMarks k e.unit)).queueEpoch (plainChange .repair)
          (s.log memRepairDone srcMp (locRow c src) 0 none [w64 e'.moved, w64 e'.poisoned]).closeSpan (locRow c src) memRepairStart
        else s)

/-! ## Self-refresh (R189) -/

/-- Whether a near-bank program runs or waits in a slice. -/
def unitsBusy (k : Slice) : Bool :=
  k.launches.any (fun l => !l.admitted) || k.units.any (fun x => match x.2.st with
    | .running | .waiting | .suspended | .paused => true
    | _ => false)
/-- A slice enters self-refresh: held accesses and eddies are completed first. -/
def enterSelfRefresh (s : State) (c : CoreId) : State :=
  let s := allChans.foldl (fun s ch =>
    if (s.chan c ch).lost then s
    else
      let s := (drainHeld s c ch).flushWhere c ch (fun _ => true)
      s.modChan c ch (fun x => { x with owed := 0, openRows := [], openSince := [] })) s
  s.modSlice c (fun k => { k with selfRefresh := true })
/-- Whether a stop of the whole module is under way. -/
def stopping (s : State) : Bool := s.err.safe || decide (2 ≤ s.thm.coolSt) || s.thm.orderly
/-- SELF_REFRESH_ENTER: by the TS with the core asleep, or by the channel engines in a stop (Table 15.1). -/
def execSelfRefreshEnter (c : CoreId) (s : State) : Out :=
  .next (
    let k := s.core c
    let asleep : Bool := (k.mode == .retention || k.mode == .off) && s.procUp (2 + (towerOf c).val)
    if (s.slice c).selfRefresh ∨ retraining s c ∨ unitsBusy (s.slice c) then s
    else if asleep || stopping s then enterSelfRefresh s c else s)
/-- SELF_REFRESH_EXIT: the drift condition of R178 is checked at exit. -/
def execSelfRefreshExit (c : CoreId) (s : State) : Out :=
  .next (
    if (s.slice c).selfRefresh = false ∨ stopping s then s
    else
      let s := s.modSlice c (fun k => { k with selfRefresh := false })
      let s := allChans.foldl (fun s ch => if drifted s c ch then retrainTrigger s c ch .drift else s) s
      allChans.foldl (fun s ch => if s.chanHolds c ch then s else drainHeld s c ch) s)

/-! ## Restores (R200, R218) -/

/-- The number of a restore source in its record. -/
def restoreNo : Restore → Nat
  | .none => 0
  | .far => 1
  | .host => 2
/-- The end of a restore of a region. -/
def endRestore (s : State) (r : Region) (done : List Nat) : State :=
  let s := s.modRegion r.id (fun x => { x with recovering := false, lost := false, todo := [], restored := [] })
  let s := s.log memRestored srcMp (locRegion r.id) 0 (some (r.ctx, r.part))
    [w64 (done.headD 0), w64 done.length, w64 (restoreNo r.restore)]
  s.closeRestore { r with todo := done }
/-- LINE_RESTORE: the MP rewrites a line from the far-tier copy or, as the command brings it, from the host copy. -/
def execLineRestore (region : W32) (line : Nat) (src : HostRead) (s : State) : Out :=
  .next (
    match s.regions.find? (fun r => r.id == region) with
    | none => s
    | some r =>
      if s.mpUp = false ∨ r.recovering = false ∨ r.fenced ∨ r.todo.contains line = false then s
      else
        let at_ := r.lineAddr line
        if s.rangeHeld at_.1 r.view at_.2 4096 then s
        else
          let got : State × Option (List Byte) := match r.restore with
            | .far => let x := s.viewRead 0 2 (bits r.source 0 60 + line * 4096) 4096; (x.1, if x.2.2 then none else some x.2.1)
            | .host => (match src with
              | .words ws => (s, some (((ws ++ List.replicate 512 0).take 512).flatMap (fun (w : W64) => natLe 8 w.toNat)))
              | .failed => (s, none))
            | .none => (s, none)
          match got.2 with
          | none => got.1.fenceRegion r
          | some bs =>
            let s := got.1.viewWrite at_.1 r.view at_.2 bs false
            let rest := r.todo.erase line
            let done := r.restored ++ [line]
            if rest.isEmpty then endRestore s r done
            else s.modRegion r.id (fun x => { x with todo := rest, restored := done }))

/-! ## Patrol scrub (R205, R206) -/

/-- Rows of a slice, reserve rows included. -/
def sliceRows : Nat := 128 * 4224
/-- Reads the blocks of a row that lie in weight and state regions, and counts what the decoder finds. -/
def scrubBlocks (s : State) (c : CoreId) (n : Nat) : State :=
  (List.range 64).foldl (fun s i =>
    let a := rowCoord n (Fin.ofNat 64 i)
    match s.regionAt c a with
    | none => s
    | some r =>
      if r.ptype = .activation then s
      else
        let p := (s.slice c).place a
        let x := decodeFull (s.blkData c p) (s.blkCheck c p)
        let s := (s.charge c 16 (8 + a.ch.val) 500).bankRead c a |>.1
        s.modSlice c (fun k => { k with scrub := { k.scrub with
          corrections := k.scrub.corrections + (if (mendedBit x).isSome then 1 else 0),
          uncorr := k.scrub.uncorr + (if x = .uncorrectable then 1 else 0) } })) s
/-- The scrub engine moves on; the end of a pass is counted and logged. -/
def scrubNext (s : State) (c : CoreId) : State :=
  let k := (s.slice c).scrub
  if k.next + 1 < sliceRows then s.modSlice c (fun x => { x with scrub := { k with next := k.next + 1 } })
  else
    let s := s.modSlice c (fun x => { x with scrub := { next := 0, skipped := k.skipped, corrections := 0, uncorr := 0 } })
    let s := { s with mem := { s.mem with scrubPasses := s.mem.scrubPasses + 1 } }
    s.log memScrubPass (srcSlice c) (loc 1 (c.val * 2 ^ 48)) 0 none [w64 k.corrections, w64 k.uncorr]
/-- SCRUB_ROW: the skipped row once its segment has ended, else the next row; a row of a segment's pair is skipped. -/
def execScrubRow (c : CoreId) (s : State) : Out :=
  .next (
    let k := (s.slice c).scrub
    if s.mem.scrubEn = false ∨ (s.slice c).selfRefresh then s
    else match k.skipped with
      | some n =>
        if s.pairHeld c (rowCoord n 0) ∨ s.chanHolds c (rowCoord n 0).ch then s
        else scrubBlocks (s.modSlice c (fun x => { x with scrub := { k with skipped := none } })) c n
      | none =>
        let a := rowCoord k.next 0
        if (s.chan c a.ch).lost ∨ 4096 ≤ a.row.val then scrubNext s c
        else if s.chanHolds c a.ch then s
        else if s.pairHeld c a then scrubNext (s.modSlice c (fun x => { x with scrub := { k with skipped := some k.next } })) c
        else scrubNext (scrubBlocks s c k.next) c)

/-! ## Code test window (R207, R208) -/

/-- The block that the window names. -/
def testBlock (s : State) : CoreId × Coord :=
  (Fin.ofNat 512 s.mem.ctCore.toNat,
   { ch := Fin.ofNat 4 (bits s.mem.ctLoc 26 2), half := Fin.ofNat 2 (bits s.mem.ctLoc 25 1), bank := Fin.ofNat 16 (bits s.mem.ctLoc 21 4),
     row := Fin.ofNat 4224 (bits s.mem.ctLoc 8 13), blk := Fin.ofNat 64 (bits s.mem.ctLoc 0 6) })
/-- Whether the row selected is a reserve row that no repair uses. -/
def testRowFree (s : State) : Bool :=
  let b := testBlock s
  decide (4096 ≤ bits s.mem.ctLoc 8 13) && decide (bits s.mem.ctLoc 8 13 < 4224) && !((usedReserve (s.slice b.1)).contains (rowId b.2))
/-- The data registers as a block. -/
def testData (s : State) : BlockData :=
  BitVec.ofNat 256 (s.mem.ctData.foldr (fun w acc => acc * 2 ^ 32 + w.toNat) 0)
/-- A block as data registers. -/
def dataWords (d : BlockData) : List W32 := (List.range 8).map (fun i => BitVec.ofNat 32 (bits d (32 * i) 32))
/-- One operation of Table 7.5: no record, no write-back, no mark. -/
def testOp (s : State) (op : Nat) : State :=
  let b := testBlock s
  let d := s.blkData b.1 b.2
  let k := s.blkCheck b.1 b.2
  let s := s.charge b.1 16 (8 + b.2.ch.val) 500
  match op with
  | 1 => s.setBlk b.1 b.2 (testData s) s.mem.ctCheck
  | 2 => s.setBlk b.1 b.2 (testData s) (checkWord (testData s))
  | 3 => { s with mem := { s.mem with ctData := dataWords d, ctCheck := k } }
  | 4 =>
    let x := decodeFull d k
    let cls : Nat := match x with
      | .clean => 0 | .dataBit _ => 1 | .rowCheck _ => 2 | .colCheck _ => 3 | .uncorrectable => 4 | .poisoned => 5
    { s with mem := { s.mem with ctData := dataWords (mended d x), ctSynd := syndrome d k, ctClass := BitVec.ofNat 3 cls,
                                 ctBit := BitVec.ofNat 9 ((mendedBit x).getD 0) } }
  | 5 =>
    let cls : Nat := if flagPoisoned k then 5 else if failingRows d k = 0 then 0 else 4
    { s with mem := { s.mem with ctData := dataWords d, ctClass := BitVec.ofNat 3 cls, ctBit := 0,
                                 ctSynd := BitVec.ofNat 32 ((bits k 16 16 ^^^ 0x5A5A) * 2 ^ 16 + failingRows d k) } }
  | _ => s
/-- A write of an operation: it runs at once, or waits behind a retrain; busy lasts until it is done. -/
def testGo (s : State) (op : Nat) : State :=
  let b := testBlock s
  if op = 0 ∨ 5 < op then s
  else if s.chanHolds b.1 b.2.ch then { s with mem := { s.mem with ctBusy := true, ctOp := BitVec.ofNat 3 op } }
  else let s := testOp s op; { s with mem := { s.mem with ctBusy := true, ctOp := 0 } }
/-- CODE_TEST_OP_DONE: the operation has completed. -/
def execCodeTestOpDone (s : State) : Out :=
  .next (
    let b := testBlock s
    if s.mem.ctBusy = false then s
    else if s.mem.ctOp = 0 then { s with mem := { s.mem with ctBusy := false } }
    else if s.chanHolds b.1 b.2.ch then s
    else let s := testOp s s.mem.ctOp.toNat; { s with mem := { s.mem with ctBusy := false, ctOp := 0 } })

end Sys2Proof.Machine
end

