-- ==== Sys2Proof/Machine/Pages.lean ====
section
/-! DEFINITION. Pages of the key/value cache: frames in bank pairs, headers, placement, losses (R242, R269-R279, R293). -/

namespace Sys2Proof.Machine

/-! ## Local space of a unit (R242) -/

/-- The block at a local byte address of a unit. -/
def localCoord (u : UnitId) (t : Nat) : Coord where
  ch := Fin.ofNat 4 (u.val / 16)
  half := Fin.ofNat 2 (u.val / 8)
  bank := Fin.ofNat 16 (2 * (u.val % 8) + t / 32 % 2)
  row := Fin.ofNat 4224 (t / 4096)
  blk := Fin.ofNat 64 (t / 64)
/-- Reads n blocks of a unit's pair through the slice controller from a local address: bytes and whether any is poisoned. -/
def localRead (s : State) (c : CoreId) (u : UnitId) (t n : Nat) : State × List Byte × Bool :=
  (List.range n).foldl (fun (acc : State × List Byte × Bool) i =>
    let r := (acc.1).ctlRead c (localCoord u (t + 32 * i))
    (r.1, acc.2.1 ++ natLe 32 r.2.data.toNat, acc.2.2 || r.2.poison)) (s, [], false)
/-- Writes whole blocks into a unit's pair from a local address; `bad` picks the blocks written poisoned. -/
def localWrite (s : State) (c : CoreId) (u : UnitId) (t : Nat) (bs : List Byte) (bad : Nat → Bool) : State :=
  (List.range ((bs.length + 31) / 32)).foldl (fun s i =>
    s.ctlWrite c (localCoord u (t + 32 * i)) (BitVec.ofNat 256 (leNat ((bs.drop (32 * i)).take 32))) 0xFFFFFFFF (bad i)) s
/-- Whether accesses to a range of local rows wait. -/
def localHeld (s : State) (c : CoreId) (u : UnitId) : Bool :=
  let a := localCoord u 0
  !(s.chan c a.ch).lost && (s.chanHolds c a.ch || s.pairHeld c a)

/-! ## Frames (R269-R272, R277) -/

/-- Bytes of a frame. -/
def frameBytes (kf vf : Nat) : Nat := 4096 * frameRows kf vf
/-- Local offset of a frame's header. -/
def headerAt (kf vf : Nat) : Nat := 4096 * (kvBits kf + kvBits vf) + 1024
/-- Whether an entry has a frame in a slice. -/
def Page.framed (p : Page) : Bool := p.st == .resident || p.st == .spilling || p.st == .filling
/-- The local rows that frames, reservations and copies under way take in a unit. -/
def State.rowsTaken (s : State) (c : CoreId) (u : UnitId) : List (Nat × Nat) :=
  s.pages.flatMap (fun p =>
    (if p.framed && p.core == c && p.unit == u then [(p.row, frameRows p.kfmt p.vfmt)] else [])
    ++ (match p.migrate with
        | some (c', u', r, _, _) => if c' = c ∧ u' = u then [(r, frameRows p.kfmt p.vfmt)] else []
        | none => [])
    ++ (match p.narrow with
        | some (r, kf, vf, _) => if p.core = c ∧ p.unit = u then [(r, frameRows kf vf)] else []
        | none => []))
  ++ s.extents.flatMap (fun e =>
    if e.core = c ∧ e.unit = u then
      [(e.row + e.used * e.rows, (e.reserved - e.used) * e.rows)]
    else [])
  ++ s.badRows.filterMap (fun b => if b.1 = c.val ∧ b.2.1 = u.val then some (b.2.2, 1) else none)
/-- Whether a unit's local row still lies in its own pair: sub-array and bank repairs may move it out (R186). -/
def State.rowStays (s : State) (c : CoreId) (u : UnitId) (r : Nat) : Bool :=
  match (s.slice c).repairs with
  | [] => true
  | _ => [0, 32].all (fun b => unitOf ((s.slice c).place (localCoord u (4096 * r + b))) == u)
/-- Whether a unit can hold frames: neither fenced nor on a lost channel. -/
def State.unitServes (s : State) (c : CoreId) (u : UnitId) : Bool :=
  !(s.unit c u).fencedU && !(s.chan c (localCoord u 0).ch).lost && !(s.fencedTowers.contains (towerOf c).val)
/-- Maximal runs of the rows [lo, hi) that a test picks: first row and length. -/
def freeRuns (ok : Nat → Bool) (lo hi : Nat) : List (Nat × Nat) :=
  ((List.range (hi - lo)).foldl (fun (acc : List (Nat × Nat) × Nat) i =>
    let r := lo + i
    if ok r then
      if r + 1 = hi then ((r - acc.2, acc.2 + 1) :: acc.1, 0) else (acc.1, acc.2 + 1)
    else if acc.2 = 0 then acc else ((r - acc.2, acc.2) :: acc.1, 0)) (([] : List (Nat × Nat)), 0)).1.reverse
/-- The rows of a pool that hold frames: the pool's rows but the top four (R277). -/
def poolRows (r : Region) : Nat × Nat := (r.base / 262144, (r.base + r.lines * 4096) / 262144 - 4)
/-- A context's cache configuration and its pool. -/
def State.kvOf (s : State) (x : CtxId) : Option (KvCfg × Region) :=
  match s.ctx? x with
  | some y => (match y.kv with
    | some k => (s.regions.find? (fun r => r.id == k.poolRegion)).map (fun r => (k, r))
    | none => none)
  | none => none
/-- Free runs of a unit in a pool. -/
def State.unitRuns (s : State) (pool : Region) (c : CoreId) (u : UnitId) : List (Nat × Nat) :=
  if s.unitServes c u ∧ pool.firstCore ≤ c.val ∧ c.val ≤ pool.lastCore then
    let taken := s.rowsTaken c u
    let w := poolRows pool
    freeRuns (fun r => !(taken.any (fun t => decide (t.1 ≤ r) && decide (r < t.1 + t.2))) && s.rowStays c u r) w.1 w.2
  else []
/-- All units. -/
def allUnits : List UnitId := (List.range 64).map (Fin.ofNat 64)
/-- Free frames of a slice in a pool, in frames of n rows. -/
def State.freeFrames (s : State) (pool : Region) (c : CoreId) (n : Nat) : Nat :=
  ((allUnits.flatMap (fun u => s.unitRuns pool c u)).map (fun r => r.2 / n)).sum

/-! ## Entries (R274-R276) -/

/-- An entry of the page tables. -/
def State.page? (s : State) (k : PageKey) : Option Page := s.pages.find? (fun p => p.key == k)
/-- The state with an entry changed. -/
def State.modPage (s : State) (k : PageKey) (f : Page → Page) : State := { s with pages := updWhere (fun p => p.key == k) f s.pages }
/-- A sequence. -/
def State.seq? (s : State) (x : CtxId) (q : W32) : Option Seq := s.seqs.find? (fun y => y.ctx == x && y.seqId == q)
/-- The state with a sequence changed. -/
def State.modSeq (s : State) (x : CtxId) (q : W32) (f : Seq → Seq) : State :=
  { s with seqs := updWhere (fun y => y.ctx == x && y.seqId == q) f s.seqs }
/-- The pages of a sequence. -/
def State.seqPages (s : State) (x : CtxId) (q : W32) : List Page := s.pages.filter (fun p => p.key.ctx == x && p.key.seqId == q)
/-- A scheduler serves the pages on a core's slice. -/
def State.tsUp (s : State) (c : CoreId) : Bool := s.tsServes (towerOf c).val
/-- The tail entry of a stream: the one of the highest page index. -/
def tailOf (ps : List Page) (stream : Nat) : Option Page :=
  (ps.filter (fun p => p.key.stream == stream)).foldl (fun (acc : Option Page) p =>
    match acc with
    | some q => if q.key.page < p.key.page then some p else some q
    | none => some p) none
/-- The words Q0-Q2 of a page header (Table 10.3). -/
def headerWords (kvHeads : Nat) (firstPos : W32) (p : Page) : List W64 :=
  [w64 (0x4B565047 * 2 ^ 32 + 0x01 * 2 ^ 24 + p.kfmt * 2 ^ 21 + p.vfmt * 2 ^ 18),
   w64 (p.key.seqId.toNat * 2 ^ 32 + p.key.stream / kvHeads * 2 ^ 16 + p.key.stream % kvHeads * 2 ^ 8),
   w64 ((firstPos.toNat + 256 * p.key.page) % 2 ^ 32 * 2 ^ 32 + p.key.page * 2 ^ 16 + p.gen.toNat)]
/-- Writes a page's header whole into its frame. -/
def putHeader (s : State) (k : KvCfg) (firstPos : W32) (p : Page) : State :=
  let ws := headerWords k.kvHeads firstPos p ++ List.replicate 29 0
  localWrite s p.core p.unit (4096 * p.row + headerAt p.kfmt p.vfmt) (ws.flatMap (fun w => natLe 8 w.toNat)) (fun _ => false)
/-- Whether header words match an entry's sequence, layer, head and page index (R271). -/
def headerMatches (kvHeads : Nat) (p : Page) (ws : List W64) : Bool :=
  let q0 := ws.getD 0 0
  let q1 := ws.getD 1 0
  let q2 := ws.getD 2 0
  bits q0 32 32 == 0x4B565047 && bits q1 32 32 == p.key.seqId.toNat && bits q1 16 16 == p.key.stream / kvHeads
  && bits q1 8 8 == p.key.stream % kvHeads && bits q2 16 16 == p.key.page
/-- Words of bytes. -/
def leWords (bs : List Byte) (n : Nat) : List W64 := (List.range n).map (fun i => BitVec.ofNat 64 (leNat ((bs.drop (8 * i)).take 8)))

/-! ## Placement (R278) -/

/-- The extents of extent number j of a stream. -/
def State.extentsOf (s : State) (k : PageKey) (e : Nat) : List Extent :=
  s.extents.filter (fun x => x.key.ctx == k.ctx && x.key.seqId == k.seqId && x.key.stream == k.stream && x.key.page / e == k.page / e)
/-- Cores of a placement set in rotation order from a start. -/
def rotation (first count start : Nat) : List CoreId :=
  (List.range count).map (fun n => Fin.ofNat 512 (first + (start + n) % count))
/-- The run a new extent takes: the lowest run that holds all its frames, else the longest. -/
def bestRun (rows want : Nat) (runs : List (Nat × Nat)) : Option (Nat × Nat) :=
  match runs.find? (fun r => decide (rows * want ≤ r.2)) with
  | some r => some (r.1, want)
  | none => (runs.foldl (fun (acc : Option (Nat × Nat)) r =>
      if r.2 < rows then acc else match acc with
        | some a => if a.2 < r.2 then some r else some a
        | none => some r) none).map (fun r => (r.1, r.2 / rows))
/-- Frames of a layer of a context in a unit. -/
def State.layerFrames (s : State) (x : CtxId) (kvHeads layer : Nat) (c : CoreId) (u : UnitId) : Nat :=
  (s.pages.filter (fun p => p.framed && p.key.ctx == x && p.key.stream / kvHeads == layer && p.core == c && p.unit == u)).length
/-- The unit of a slice that a new extent takes: the fewest frames of the layer, the lowest number on ties. -/
def State.pickUnit (s : State) (cfg : KvCfg) (pool : Region) (k : PageKey) (rows : Nat) (c : CoreId) (not : List UnitId) :
    Option UnitId :=
  (allUnits.filter (fun u => !(not.contains u) && (s.unitRuns pool c u).any (fun r => decide (rows ≤ r.2)))).foldl
    (fun (acc : Option UnitId) u =>
      match acc with
      | some v =>
        if s.layerFrames k.ctx cfg.kvHeads (k.stream / cfg.kvHeads) c u < s.layerFrames k.ctx cfg.kvHeads (k.stream / cfg.kvHeads) c v
        then some u else some v
      | none => some u) none
/-- A frame for a page: the next of its extent's reservation, else a new extent in the placement set. -/
def allocFrame (s : State) (cfg : KvCfg) (pool : Region) (q : Seq) (k : PageKey) (kf vf : Nat) :
    Option (State × CoreId × UnitId × Nat) :=
  let rows := frameRows kf vf
  let mine := s.extentsOf k cfg.extent
  match mine.find? (fun e => decide (e.used < e.reserved) && e.rows == rows && s.unitServes e.core e.unit
      && (List.range rows).all (fun i => s.rowStays e.core e.unit (e.row + e.used * rows + i))) with
  | some e =>
    some ({ s with extents := updWhere (· == e) (fun x => { x with used := x.used + 1 }) s.extents }, e.core, e.unit, e.row + e.used * rows)
  | none =>
    let not := mine.map (·.unit)
    let cores := rotation q.firstCore q.coreCount (q.seqId.toNat + k.stream + k.page / cfg.extent)
    (cores.findSome? (fun c => (s.pickUnit cfg pool k rows c not).map (fun u => (c, u)))).bind (fun cu =>
      (bestRun rows (cfg.extent - k.page % cfg.extent) (s.unitRuns pool cu.1 cu.2)).map (fun r =>
        let e : Extent := { key := k, core := cu.1, unit := cu.2, row := r.1, reserved := r.2, used := 1, rows := rows }
        ({ s with extents := s.extents ++ [e] }, cu.1, cu.2, r.1)))
/-- Releases reservations in the slices that a test picks (R292). -/
def releaseReservations (s : State) (x : CtxId) (at_ : CoreId → Bool) : State :=
  { s with extents := updWhere (fun e => e.key.ctx == x && at_ e.core) (fun e => { e with reserved := e.used }) s.extents }
/-- A new page with count 0 and its header. -/
def newPage (s : State) (cfg : KvCfg) (pool : Region) (q : Seq) (k : PageKey) : Option State :=
  (allocFrame s cfg pool q k cfg.kfmt cfg.vfmt).map (fun r =>
    let p : Page := { key := k, st := .resident, clean := false, core := r.2.1, unit := r.2.2.1, row := r.2.2.2, count := 0, pins := 0,
                      gen := 1, kfmt := cfg.kfmt, vfmt := cfg.vfmt, slot := 0, since := s.now, copied := false, migrate := none,
                      narrow := none, tailDue := false }
    putHeader { r.1 with pages := r.1.pages ++ [p] } cfg q.firstPos p)

/-! ## Slots of the spillway (R232) -/

/-- Whether an entry holds a slot of the far tier. -/
def Page.slotted (p : Page) : Bool := p.st == .spilling || p.st == .spilled || p.st == .filling || p.clean
/-- The spillway pool of a context. -/
def State.spillPool (s : State) (x : CtxId) : Option Region :=
  match s.ctx? x with
  | some y => (match y.kv with
    | some k => if k.spillRegion = 0xFFFFFFFF then none
                else s.regions.find? (fun r => r.id == k.spillRegion && r.spillway && !r.fenced && !r.lost)
    | none => none)
  | none => none
/-- The far offsets of a pool's slots. -/
def slotsOf (r : Region) : List Nat := (List.range (r.lines / Nat.max 1 r.slot4k)).map (fun i => r.base + i * r.slot4k * 4096)
/-- A free slot of a pool for a page of n rows; a clean copy gives up its slot when the pool needs it (R234). -/
def takeSlot (s : State) (pool : Region) (rows : Nat) : Option (State × Nat) :=
  if pool.slot4k < rows then none
  else
    let used := (s.pages.filter Page.slotted).map (·.slot)
    match (slotsOf pool).find? (fun o => !(used.contains o)) with
    | some o => some (s, o)
    | none =>
      let clean := s.pages.filter (fun p => p.clean && p.st == .resident && (slotsOf pool).contains p.slot)
      match clean[Config.choice s.free % Nat.max 1 clean.length]? with
      | some p => some ((s.modPage p.key (fun x => { x with clean := false, slot := 0, gen := x.gen + 1 })).drew 1, p.slot)
      | none => none

/-! ## Freeing and losing pages -/

/-- An entry leaves a sequence's table: its frame, copies and slot are free. -/
def dropPage (s : State) (k : PageKey) : State := { s with pages := s.pages.filter (fun p => p.key != k) }
/-- Ends a sequence in ENDING once no page of it is pinned: pages, slots and leaves are freed, and its descriptor may complete. -/
def freeEnding (s : State) (x : CtxId) (q : W32) : State :=
  let go := (s.seqPages x q).filter (fun p => p.pins == 0)
  let s := { s with pages := s.pages.filter (fun p => !(p.key.ctx == x && p.key.seqId == q && p.pins == 0)) }
  if go.isEmpty ∧ (s.seqPages x q).isEmpty = false then s
  else if (s.seqPages x q).isEmpty then
    { s with extents := s.extents.filter (fun e => !(e.key.ctx == x && e.key.seqId == q)) }
  else s
/-- Pages picked by a test are LOST (R271, R288, Table 10.13): one EV_KV_LOST record for each sequence, and the sequence's own
status. Causes: 0 header, 1 channel, 2 far port (log entry 24). -/
def losePages (s : State) (cause : Nat) (hit : Page → Bool) : State :=
  let gone := s.pages.filter (fun (p : Page) => hit p && p.st != PageSt.lost && p.st != PageSt.spread)
  let lose (p : Page) : Page := { p with st := .lost, clean := false, slot := 0, gen := p.gen + 1, migrate := none, narrow := none }
  let s := { s with pages := updWhere (fun (p : Page) => hit p && p.st != PageSt.lost && p.st != PageSt.spread) lose s.pages }
  s.seqs.foldl (fun (s : State) (q : Seq) =>
    let mine := gone.filter (fun (p : Page) => p.key.ctx == q.ctx && p.key.seqId == q.seqId)
    match mine with
    | [] => s
    | p :: _ =>
      let s := s.modSeq q.ctx q.seqId (fun y => { y with own := if y.own = 0 then stKvLost else y.own })
      s.log evKvLost (srcTs (towerOf p.core)) (locSeq q.ctx q.seqId) 0 (some (q.ctx, q.part)) [w64 mine.length, w64 cause]) s

/-! ## Victims (R293) -/

/-- Whether a page may be spilled at all: it is full, unpinned, RESIDENT, and its owner allows it. -/
def State.spillable (s : State) (p : Page) : Bool :=
  match s.seq? p.key.ctx p.key.seqId with
  | none => false
  | some q =>
    q.evictable && q.st == .active && !q.ring && p.st == .resident && p.pins == 0 && p.migrate.isNone && p.narrow.isNone
    && (match tailOf (s.seqPages p.key.ctx p.key.seqId) p.key.stream with | some t => t.key != p.key | none => false)
    && !(s.sched.steps.any (fun r => r.ctx == q.ctx && r.batch.any (fun b => b.1 == q.seqId) && !(r.gone.contains q.seqId)))
    && (s.spillPool p.key.ctx).isSome
/-- Whether one victim comes before another: lowest priority, oldest last_step, highest layer, highest page index. -/
def State.victimBefore (s : State) (a b : Page) : Bool :=
  match s.seq? a.key.ctx a.key.seqId, s.seq? b.key.ctx b.key.seqId with
  | some x, some y =>
    let hx := match s.kvOf x.ctx with | some (k, _) => k.kvHeads | none => 1
    let hy := match s.kvOf y.ctx with | some (k, _) => k.kvHeads | none => 1
    let lx := a.key.stream / hx
    let ly := b.key.stream / hy
    if x.priority ≠ y.priority then decide (x.priority.toNat < y.priority.toNat)
    else if x.lastStep ≠ y.lastStep then decide (x.lastStep.toNat < y.lastStep.toNat)
    else if lx ≠ ly then decide (ly < lx)
    else decide (b.key.page < a.key.page)
  | _, _ => false
/-- Inserts a page into a list of victims in order. -/
def State.insertVictim (s : State) (p : Page) : List Page → List Page
  | [] => [p]
  | x :: t => if s.victimBefore p x then p :: x :: t else x :: s.insertVictim p t
/-- The victims for a requester of a partition and a priority, in the slices that a test picks, in order. -/
def State.victims (s : State) (part : PartId) (priority : Byte) (at_ : CoreId → Bool) : List Page :=
  (s.pages.filter (fun p => s.spillable p && at_ p.core && (match s.seq? p.key.ctx p.key.seqId with
    | some q => q.part == part && decide (q.priority.toNat ≤ priority.toNat)
    | none => false))).foldl (fun acc p => s.insertVictim p acc) []

end Sys2Proof.Machine
end

