-- ==== Sys2Proof/Machine/MapViews.lean ====
section
/-! DEFINITION. Lost channels, substitutions, map epochs, tower migration, changes of spread_16m (R188, R221-R226, R237). -/

namespace Sys2Proof.Machine

/-! ## Substitution (R224, R226) -/

/-- Links between two towers of the grid (Table 1.2). -/
def towerDist (a b : Nat) : Nat :=
  (if a % 4 < b % 4 then b % 4 - a % 4 else a % 4 - b % 4) + (if a / 4 = b / 4 then 0 else 1)
/-- Whether a global channel may be a donor: its tower is in service, it is not lost, the map uses it. -/
def donates (s : State) (m : MapSt) (g : Nat) : Bool :=
  !(m.out.contains g) && !(s.chan (gchCore g) (gchChan g)).lost && !(s.fencedTowers.contains (g / 256))
/-- Free spare sets of a channel under a map, ascending. -/
def freeSets (s : State) (m : MapSt) (g : Nat) : List Nat :=
  let used := (m.subsets.filter (fun x => x.donor == g)).map (·.dset)
  ((List.range (s.setCount - s.setsAddr)).map (fun i => s.setsAddr + i)).filter (fun j => !(used.contains j))
/-- Free spare sets of the package (MEM_MAP_SPARE). -/
def State.spareSets (s : State) : Nat :=
  (((List.range 2048).filter (donates s s.map)).map (fun g => (freeSets s s.map g).length)).sum
/-- A lost set, with its place in the numbering that picks its donor. -/
structure LostSet where
  j : Nat
  chan : Nat
  set : Nat
  deriving DecidableEq, Repr
/-- One pass over the lost sets: set j goes to donor j mod D, into its lowest free spare set, at most `cap` sets a donor. -/
def placeSets (s : State) (m : MapSt) (donors : List Nat) (cap : Nat) (sets : List LostSet) : List SubSet × List LostSet :=
  if donors.isEmpty then ([], sets)
  else
    let free := donors.map (freeSets s m)
    let r := sets.foldl (fun (acc : List Nat × List SubSet × List LostSet) x =>
      let i := x.j % donors.length
      let k := acc.1.getD i 0
      match (free.getD i [])[k]? with
      | some f =>
        if k < cap then
          (acc.1.set i (k + 1), { chan := x.chan, set := x.set, donor := donors.getD i 0, dset := f } :: acc.2.1, acc.2.2)
        else (acc.1, acc.2.1, x :: acc.2.2)
      | none => (acc.1, acc.2.1, x :: acc.2.2)) (List.replicate donors.length 0, [], [])
    (r.2.1.reverse, r.2.2.reverse)
/-- The lost sets placed over groups of donors, each group taking what the ones before could not hold; `k` lost channels. -/
def placeOver (s : State) (m : MapSt) (k : Nat) : List (List Nat) → List LostSet → List SubSet × List LostSet
  | [], sets => ([], sets)
  | ds :: rest, sets =>
    let ds := ds.filter (fun g => donates s m g && !(freeSets s m g).isEmpty)
    let r := placeSets s m ds ((k * s.setsAddr + ds.length - 1) / Nat.max 1 ds.length) sets
    let t := placeOver s m k rest r.2
    (r.1 ++ t.1, t.2)
/-- The sets that a channel held as a donor, each with its number in the channel that first lost it. -/
def heldSets (m : MapSt) (g : Nat) : List LostSet :=
  (m.subsets.filter (fun x => x.donor == g)).map (fun x => { j := x.set, chan := x.chan, set := x.set })
/-- The global channels of a tower. -/
def towerChans (t : Nat) : List Nat := (List.range 256).map (fun i => 256 * t + i)
/-- The change of the map for the loss of a channel. -/
def lossChange (s : State) (m : MapSt) (g : Nat) : EpochChange :=
  let own : List LostSet := ((List.range s.setsAddr).filter (fun j => !(m.subsets.any (fun x => x.chan == g && x.set == j)))).map
    (fun j => { j := j, chan := g, set := j })
  let m' := { m with out := m.out ++ [g] }
  let groups := (List.range 5).map (fun d => ((List.range 8).filter (fun t => towerDist t (g / 256) == d)).flatMap towerChans)
  let r := if 64 ≤ m.substs then ([], own ++ heldSets m g) else placeOver s m' 1 groups (own ++ heldSets m g)
  { cause := .channelLoss, tower := none, changed := [g], subsets := r.1, unmapped := r.2.map (fun x => (x.chan, x.set)),
    donors := (r.1.map (·.donor)).eraseDups.length, migrated := 0, lines := r.1.length + r.2.length }
/-- The change of the map for the fence of a tower: its channels are substituted as one group over all other channels. -/
def fenceChange (s : State) (m : MapSt) (t : Nat) : EpochChange :=
  let gone := (towerChans t).filter (fun g => !(m.out.contains g))
  let own : List LostSet := (gone.flatMap (fun g =>
    ((List.range s.setsAddr).filter (fun j => !(m.subsets.any (fun x => x.chan == g && x.set == j)))).map (fun j => (g, j)))).zipIdx.map
      (fun x => { j := x.2, chan := x.1.1, set := x.1.2 })
  let m' := { m with out := m.out ++ gone }
  let others := ((List.range 8).filter (fun u => u != t)).flatMap towerChans
  let sets := own ++ gone.flatMap (heldSets m)
  let r := if 64 ≤ m.substs then ([], sets) else placeOver s m' 256 [others] sets
  { cause := .towerFence, tower := some (Fin.ofNat 8 t), changed := gone, subsets := r.1,
    unmapped := r.2.map (fun x => (x.chan, x.set)), donors := (r.1.map (·.donor)).eraseDups.length, migrated := 0,
    lines := r.1.length + r.2.length }
/-- The map with a change in force. -/
def MapSt.adopt (m : MapSt) (x : EpochChange) : MapSt :=
  { m with
    subsets := m.subsets.filter (fun y => !(x.changed.contains y.donor)) ++ x.subsets,
    unmapped := m.unmapped ++ x.unmapped,
    out := m.out ++ x.changed,
    substs := m.substs + (if x.subsets.isEmpty then 0 else 1) }
/-- The records of a substitution: MEM_SPREAD_SUBST, and MEM_SPARE_EXHAUSTED when sets are left unmapped. -/
def logSubst (s : State) (x : EpochChange) : State :=
  if x.changed.isEmpty then s
  else
    let s := s.log memSpreadSubst srcMp (loc 0 0) 0 none
      [w64 x.changed.length, w64 x.donors, w64 x.subsets.length, w64 x.unmapped.length]
    if x.unmapped.isEmpty then s else s.log memSpareExhausted srcMp (loc 0 0) 0 none [w64 x.unmapped.length]
/-- The substitutions of every lost channel and every fenced tower laid out afresh (R237). -/
def layMap (s : State) : State :=
  let s := { s with map := { s.map with subsets := [], unmapped := [], out := [], substs := 0 } }
  let lost := (List.range 2048).filter (fun g => (s.chan (gchCore g) (gchChan g)).lost && !(s.fencedTowers.contains (g / 256)))
  let s := lost.foldl (fun s g => let x := lossChange s s.map g; logSubst { s with map := s.map.adopt x } x) s
  s.fencedTowers.foldl (fun s t => let x := fenceChange s s.map t; logSubst { s with map := s.map.adopt x } x) s

/-! ## Map epochs (R221-R223) -/

/-- The number of a cause in MEM_MAP_EPOCH_ADV (log entry 24). -/
def causeNo : EpochCause → Nat
  | .repair => 0
  | .channelLoss => 1
  | .substitution => 2
  | .towerFence => 3
  | .farPort => 4
  | .spreadChange => 5
/-- The epoch advances, with its record. -/
def advanceEpoch (s : State) (cause : EpochCause) (lines : Nat) : State :=
  let s := { s with map := { s.map with epoch := s.map.epoch + 1 } }
  s.log memMapEpochAdv srcMp (loc 0 0) 0 none [s.map.epoch.setWidth 64, w64 (causeNo cause), w64 lines]
/-- EPOCH_CHANGE_START: the MP prepares the next change in the order they arose, and sends HOLD. -/
def execEpochChangeStart (s : State) : Out :=
  .next (
    match s.map.change, s.map.queue with
    | none, x :: rest =>
      if s.mpUp = false then s
      else
        let y : EpochChange := match x.cause, x.changed, x.tower with
          | .channelLoss, [g], _ => lossChange s s.map g
          | .towerFence, _, some t => { fenceChange s s.map t.val with migrated := x.migrated }
          | _, _, _ => x
        { s with map := { s.map with change := some y, queue := rest } }
    | _, _ => s)
/-- Whether every translator has reported: no access to a changed line is still held in its channel, and a migration is done. -/
def reported (s : State) (x : EpochChange) : Bool :=
  x.changed.all (fun g => (s.chan (gchCore g) (gchChan g)).lost || (s.chan (gchCore g) (gchChan g)).heldQ.isEmpty)
  && (x.tower.isNone || decide (s.setsAddr ≤ x.migrated))
/-- EPOCH_FLIP: the prepared map is in force; the epoch advances and the holds end. -/
def execEpochFlip (s : State) : Out :=
  .next (
    match s.map.change with
    | some x =>
      if s.mpUp = false ∨ reported s x = false then s
      else
        let s := { s with map := { s.map.adopt x with change := none } }
        let s := advanceEpoch (logSubst s x) x.cause x.lines
        match x.cause with
        | .channelLoss => x.changed.foldl (fun s g =>
            let l := locChan (gchCore g) (gchChan g)
            (s.closeSpan l memChannelLost).dropHalted l) s
        | .towerFence => (match x.tower with
            | some t => s.closeSpan (locDie t.val) evTowerFenced
            | none => s)
        | _ => s
    | none => s)
/-- Copies one spread set to its new place, block by block, with fresh check bits. -/
def copySet (s : State) (src dst : Nat × Nat) : State :=
  (List.range 128).foldl (fun s i =>
    let at_ (x : Nat × Nat) := offCoord (gchChan x.1) (s.spreadBase + x.2 * 4096 + 32 * i)
    let r := s.ctlRead (gchCore src.1) (at_ src)
    let a := at_ dst
    let p := ((r.1).slice (gchCore dst.1)).place a
    let k := if s.ptypeAt (gchCore src.1) (at_ src) = .activation then actWord r.2.data r.2.poison
      else if r.2.poison then poisonWord r.2.data else checkWord r.2.data
    (r.1).setBlk (gchCore dst.1) p r.2.data k) s
/-- TOWER_MIGRATION: one set index more of a fenced tower moves behind the watermark. -/
def execTowerMigration (t : TowerId) (s : State) : Out :=
  .next (
    match s.map.change with
    | some x =>
      if x.tower ≠ some t ∨ s.setsAddr ≤ x.migrated then s
      else
        let s := (x.subsets.filter (fun y => y.set == x.migrated)).foldl (fun s y =>
          match s.setLoc y.chan y.set with
          | some src => if (s.chan (gchCore src.1) (gchChan src.1)).lost then s else copySet s src (y.donor, y.dset)
          | none => s) s
        { s with map := { s.map with change := some { x with migrated := x.migrated + 1 } } }
    | none => s)

/-! ## Losses of regions (R188) -/

/-- The lines of a spread region that lie on channels a test picks. -/
def State.linesOn (s : State) (r : Region) (hit : Nat → Bool) : List Nat :=
  (List.range r.lines).filter (fun i =>
    let h := spreadHome (r.base / 4096 + i)
    match s.setLoc h.1 h.2 with
    | some (g, _) => hit g
    | none => false)
/-- Spread regions with lines on channels that are lost: restored where a source exists, else reported to their owners. -/
def loseSpread (s : State) (hit : Nat → Bool) : State :=
  s.regions.foldl (fun (s : State) (r : Region) =>
    let ls := if r.view = 1 then s.linesOn r hit else []
    if ls.isEmpty ∨ r.fenced then s
    else if r.ptype = .weight ∧ r.restore ≠ .none then
      s.modRegion r.id (fun x => { x with lost := true, recovering := true, todo := (x.todo ++ ls).eraseDups })
    else
      let s := s.modRegion r.id (fun x => { x with lost := true })
      if r.ptype = .activation then s else s.stateLoss r stStateLost ls.length) s
/-- The private regions of a slice are lost whatever their type, and reported. -/
def losePrivate (s : State) (c : CoreId) : State :=
  s.regions.foldl (fun (s : State) (r : Region) =>
    if r.view = 0 ∧ r.firstCore ≤ c.val ∧ c.val ≤ r.lastCore then
      (s.modRegion r.id (fun x => { x with lost := true })).stateLoss r stStateLost r.lines
    else s) s
/-- Programs and launches of the units that a test picks end with ST_NB_LOST. -/
def loseUnits (s : State) (c : CoreId) (us : List UnitId) : State :=
  us.foldl (fun s u =>
    let s := if (s.unit c u).active then s.endUnit c u .failed 9 else s
    s.dropPending c u .failed 9) s

/-! ## Lost channels (R188) -/

/-- The number of a cause in MEM_CHANNEL_LOST. -/
def lossNo : ChanLossCause → Nat
  | .over110 => 0
  | .untrainable => 1
  | .uncorrectable => 2
/-- Whether the condition of a cause holds. -/
def lossDue (s : State) (c : CoreId) (ch : ChanId) (cause : ChanLossCause) : Bool :=
  let x := s.chan c ch
  match cause with
  | .over110 => (chanLayers ch).any (fun l => decide (440 < prot s (.layer c l)))
  | .untrainable => x.untrainable
  | .uncorrectable =>
    let recent := x.uncorr.filter (fun e => decide (s.now ≤ e.2 + 1000000))
    decide (64 < recent.length) && decide (4 ≤ (recent.map (·.1)).eraseDups.length)
/-- The loss of a channel. -/
def loseChannel (s : State) (c : CoreId) (ch : ChanId) (cause : ChanLossCause) : State :=
  let g := 4 * c.val + ch.val
  let hits := s.regions.filter (fun r => if r.view = 0 then decide (r.firstCore ≤ c.val) && decide (c.val ≤ r.lastCore)
    else r.view == 1 && !(s.linesOn r (· == g)).isEmpty)
  let reads := (s.chan c ch).heldQ.filterMap (fun h => match h with | .read a => some a | _ => none)
  let s := s.modChan c ch (fun x => { x with
    lost := true, retrain := none, retrainPending := [], eddy := [], openRows := [], openSince := [], heldQ := [],
    lastRead := match reads.getLast? with | some a => some (a, 0, true) | none => x.lastRead })
  let s := loseUnits s c (chanUnits ch)
  let s := s.logOpen memChannelLost srcMp (locChan c ch) 0 none [w64 (lossNo cause), w64 hits.length]
  let s := loseSpread (losePrivate s c) (· == g)
  let s := losePages s 1 (fun p => p.framed && p.core == c && (chanUnits ch).contains p.unit)
  let s := (s.addFence 4 c.val ch.val).queueEpoch { plainChange .channelLoss with changed := [g] }
  let lostHere := allChans.filter (fun x => (s.chan c x).lost)
  if 2 ≤ lostHere.length then s.fenceCore c else s
/-- The loss as Table 17.6 lets it run. -/
def channelLoss (s : State) (c : CoreId) (ch : ChanId) (cause : ChanLossCause) : State :=
  if (s.chan c ch).lost then s
  else match recoveryTurn s.err (locChan c ch) memChannelLost.severity with
    | .queue => { s with err := s.err.queueRecovery (locChan c ch) (.channelLoss c ch cause) }
    | .preempt => loseChannel { s with err := s.err.haltSpan (locChan c ch) } c ch cause
    | .run => loseChannel s c ch cause
/-- CHANNEL_LOST. -/
def execChannelLost (c : CoreId) (ch : ChanId) (cause : ChanLossCause) (s : State) : Out :=
  .next (if lossDue s c ch cause then channelLoss s c ch cause else s)

/-! ## Changes of spread_16m (R237) -/

/-- A new value of spread_16m: every slice is erased, every substitution laid out afresh, the epoch advances once. -/
def spreadChange (s : State) (v : BitVec 6) : State :=
  if v = s.map.spread16m then s
  else
    let s := { s with map := { s.map with spread16m := v, eraseSince := some s.now }, dram := []
                      slices := s.slices.map (fun x => (x.1, { x.2 with chans := x.2.chans.map (fun y => { y with eddy := [] }) })) }
    advanceEpoch (layMap s) .spreadChange (8 * 256 * s.setsAddr)
/-- Whether MEM_MAP_STATUS.busy reads 1: an epoch change is under way, or a change of spread_16m within its 10 ms. -/
def State.mapBusy (s : State) : Bool :=
  s.map.change.isSome || (match s.map.eraseSince with | some t => decide (s.now < t + 10000000) | none => false)

end Sys2Proof.Machine
end

