-- ==== Sys2Proof/Machine/FarTier.lean ====
section
/-! DEFINITION. The far tier's ports and the spillway (R227-R235). -/

namespace Sys2Proof.Machine

/-! ## Ports (R227, R231) -/

/-- A far port. -/
def State.farPort (s : State) (p : FarPort) : Far := s.far.getD p.val Far.reset
/-- The state with a far port changed. -/
def State.modFar (s : State) (p : FarPort) (f : Far → Far) : State := { s with far := s.far.modify p.val f }
/-- Whether a port is enabled in MEM_FAR_CFG. -/
def State.farEnabled (s : State) (p : FarPort) : Bool := if p = 0 then s.mem.farEnA else s.mem.farEnB
/-- MEM_FAR_LINK: port, state, width, rate, reason. -/
def logFarLink (s : State) (p : FarPort) (reason : Nat) : State :=
  let x := s.farPort p
  s.log memFarLink srcMp (locPort 1 p.val) 0 none [w64 p.val, w64 x.st, w64 x.width, w64 x.rate, w64 reason]
/-- The far memory without a port's bytes: a port that comes up starts empty. -/
def dropFar (p : FarPort) (m : Memory) : Memory :=
  m.filter (fun cell => !(decide (p.val * 2 ^ 40 ≤ cell.1) && decide (cell.1 < (p.val + 1) * 2 ^ 40)))
/-- A port comes up: full width and rate, or reduced; it starts empty and the map epoch advances for it. -/
def portUp (s : State) (p : FarPort) (width rate cap : Nat) : State :=
  let s := s.modFar p (fun x => { x with
    st := (if width = 4 ∧ rate = 2 then 2 else 3), width := width, rate := rate, cap := Nat.min cap 4096, attempts := s.now,
    polledAt := s.now })
  let s := { s with farMem := dropFar p s.farMem, pwr := { s.pwr with ports := s.pwr.ports.set (1 + p.val) .on } }
  (logFarLink s p 0).queueEpoch (plainChange .farPort)
/-- FAR_LINK_UP: an enabled port that was off or training completes training. -/
def execFarLinkUp (p : FarPort) (log2width : Fin 5) (rate : Fin 3) (cap : Nat) (s : State) : Out :=
  .next (
    if s.mpUp ∧ s.farEnabled p ∧ (s.farPort p).st < 2 ∧ 2 ≤ log2width.val then portUp s p log2width.val rate.val cap else s)
/-- FAR_PORT_RETRAIN: once per second, a failed port; reasons 1 outside the subset, 2 no link (log entry 24). -/
def execFarPortRetrain (p : FarPort) (r : FarTrain) (s : State) : Out :=
  .next (
    let x := s.farPort p
    if s.mpUp = false ∨ x.st ≠ 4 ∨ s.farEnabled p = false ∨ s.now < x.attempts + 1000000000 then s
    else match r with
      | .up w rate cap =>
        if 2 ≤ w.val then portUp s p w.val rate.val cap
        else logFarLink (s.modFar p (fun x => { x with attempts := s.now })) p 1
      | .outsideSubset => logFarLink (s.modFar p (fun x => { x with attempts := s.now })) p 1
      | .down => s.modFar p (fun x => { x with attempts := s.now }))
/-- Whether a far region lies on a port: on both in paired mode. -/
def Region.onPort (r : Region) (pair : Bool) (p : FarPort) : Bool :=
  r.view == 2 && (pair || r.base / 2 ^ 40 == p.val || (r.base + r.lines * 4096 - 1) / 2 ^ 40 == p.val)
/-- Whether a slot lies on a port. -/
def slotOn (pair : Bool) (p : FarPort) (slot : Nat) : Bool := pair || slot / 2 ^ 40 == p.val
/-- The words of an entry (Table 10.6). -/
def pageWords (p : Page) : List W64 :=
  let st : Nat := match p.st with
    | .empty => 0 | .resident => 1 | .spilling => 2 | .spilled => 3 | .filling => 4 | .lost => 5 | .spread => 6
  [w64 (st * 2 ^ 61 + (if p.clean then 2 ^ 60 else 0) + p.core.val * 2 ^ 51 + p.unit.val * 2 ^ 45 + p.row * 2 ^ 33 + p.count * 2 ^ 24
        + p.pins * 2 ^ 16 + p.gen.toNat),
   w64 (p.kfmt * 2 ^ 61 + p.vfmt * 2 ^ 58 + p.slot)]
/-- The owner of a page. -/
def State.pageOwner (s : State) (k : PageKey) : Owner :=
  (s.seq? k.ctx k.seqId).map (fun q => (q.ctx, q.part))
/-- A spill is cancelled: the page stays RESIDENT and its slot is free. -/
def cancelSpill (s : State) (k : PageKey) : State :=
  s.modPage k (fun p => { p with st := .resident, clean := false, slot := 0, gen := p.gen + 1, copied := false })
/-- A spill that a port failure cancels, with MEM_SPILL_FAIL (cause 0). -/
def failSpill (s : State) (p : Page) : State :=
  (cancelSpill s p.key).log memSpillFail (srcTs (towerOf p.core)) (locSeq p.key.ctx p.key.seqId) 0 (s.pageOwner p.key)
    (pageWords p ++ [0])
/-- FAR_LINK_DOWN: outstanding reads complete poisoned and writes are discarded (`viewBlock`, `viewPut` of a port that is down);
the port's regions and the pages in its slots are lost. -/
def execFarLinkDown (p : FarPort) (s : State) : Out :=
  .next (
    if s.farUp p = false then s
    else
      let pair := s.mem.farPair
      let s := s.modFar p (fun x => { x with st := 4, attempts := s.now })
      let s := s.regions.foldl (fun (s : State) (r : Region) =>
        if r.onPort pair p ∧ r.lost = false then
          (s.modRegion r.id (fun x => { x with lost := true, recovering := false, todo := [] })).stateLoss r stStateLost r.lines
        else s) s
      let s := s.pages.foldl (fun (s : State) (x : Page) =>
        if x.st = .spilling ∧ slotOn pair p x.slot then failSpill s x
        else if x.st = .resident ∧ x.clean ∧ slotOn pair p x.slot then
          s.modPage x.key (fun y => { y with clean := false, slot := 0, gen := y.gen + 1 })
        else s) s
      let s := losePages s 2 (fun x => (x.st == .spilled || x.st == .filling) && slotOn pair p x.slot)
      (logFarLink s p 3).queueEpoch (plainChange .farPort))
/-- FAR_EVENT_POLL: the device's event records, forwarded every 100 ms. -/
def execFarEventPoll (p : FarPort) (recs : List W64) (s : State) : Out :=
  .next (
    if s.mpUp = false ∨ s.farUp p = false ∨ s.now < (s.farPort p).polledAt + 100000000 then s
    else
      let s := s.modFar p (fun x => { x with polledAt := s.now })
      recs.foldl (fun s r => s.log memFarDevice srcMp (locPort 1 p.val) 0 none [w64 p.val, r]) s)

/-! ## Spilling (R233, R235) -/

/-- SPILLING begins: the page's clean copy, or a slot of the pool. -/
def startSpill (s : State) (p : Page) : State :=
  match s.spillPool p.key.ctx with
  | none => s
  | some pool =>
    if p.clean then
      s.modPage p.key (fun x => { x with st := .spilling, gen := x.gen + 1, since := s.now, copied := true })
    else match takeSlot s pool (frameRows p.kfmt p.vfmt) with
      | none => s
      | some (s, o) =>
        s.modPage p.key (fun x => { x with st := .spilling, gen := x.gen + 1, slot := o, since := s.now, copied := false })
/-- SPILL_PAGE. -/
def execSpillPage (k : PageKey) (s : State) : Out :=
  .next (
    match s.page? k with
    | some p => if s.spillable p ∧ s.tsUp p.core then startSpill s p else s
    | none => s)
/-- The slot address is written and the frame is free; a pinned page waits for its pins, 1 ms at most. -/
def endSpill (s : State) (p : Page) : State :=
  if p.pins = 0 then s.modPage p.key (fun x => { x with st := .spilled, clean := false, gen := x.gen + 1, copied := false })
  else s
/-- SPILL_COPY_DONE: the copy engine has read the frame and the device has completed every write; then step 4 is tried. -/
def execSpillCopyDone (k : PageKey) (s : State) : Out :=
  .next (
    match s.page? k with
    | none => s
    | some p =>
      if p.st ≠ .spilling ∨ s.tsUp p.core = false then s
      else if p.copied then endSpill s p
      else match s.farTarget p.slot with
        | none => failSpill s p
        | some (port, _) =>
          if s.farUp port = false then failSpill s p
          else if localHeld s p.core p.unit then s
          else
            let n := 128 * frameRows p.kfmt p.vfmt
            let own := match s.seq? k.ctx k.seqId with | some q => q.part.val | none => 0
            let s := s.charge p.core own (8 + (localCoord p.unit 0).ch.val) (500 * n)
            let r := localRead s p.core p.unit (4096 * p.row) n
            if r.2.2 then cancelSpill r.1 k
            else
              let s := (List.range (frameRows p.kfmt p.vfmt)).foldl (fun s i =>
                match s.farTarget (p.slot + 4096 * i) with
                | some (q, o) =>
                  { s with farMem := memWriteList zeroByte s.farMem (q.val * 2 ^ 40 + o) ((r.2.1.drop (4096 * i)).take 4096) }
                | none => s) r.1
              let p' := { p with copied := true, since := s.now }
              endSpill (s.modPage k (fun x => { x with copied := true, since := s.now })) p')
/-- SPILL_PIN_TIMEOUT: 1 ms after the copy, a page still pinned stays RESIDENT. -/
def execSpillPinTimeout (k : PageKey) (s : State) : Out :=
  .next (
    match s.page? k with
    | some p => if p.st = .spilling ∧ p.copied ∧ 0 < p.pins ∧ p.since + 1000000 ≤ s.now then cancelSpill s k else s
    | none => s)

/-! ## Filling (R234, R235, R295) -/

/-- Whether a sequence is scheduled in a step that has not completed. -/
def State.scheduled (s : State) (x : CtxId) (q : W32) : Bool :=
  s.sched.steps.any (fun r => r.ctx == x && r.batch.any (fun b => b.1 == q) && !(r.gone.contains q))
/-- Whether another spilled page is to be filled first: a higher priority, or the same and a lower layer. -/
def fillsFirst (s : State) (p : Page) : Bool :=
  let pr (x : Page) : Nat := match s.seq? x.key.ctx x.key.seqId with | some q => q.priority.toNat | none => 0
  let ly (x : Page) : Nat := match s.kvOf x.key.ctx with | some (k, _) => x.key.stream / k.kvHeads | none => 0
  s.pages.any (fun x => x.st == .spilled && s.scheduled x.key.ctx x.key.seqId
    && (decide (pr p < pr x) || (pr p == pr x && decide (ly x < ly p))))
/-- FILL_PAGE: a scheduled sequence's spilled page gets slice pages and its copy starts. -/
def execFillPage (k : PageKey) (s : State) : Out :=
  .next (
    match s.page? k, s.seq? k.ctx k.seqId, s.kvOf k.ctx with
    | some p, some q, some (cfg, pool) =>
      if p.st ≠ .spilled ∨ s.scheduled k.ctx k.seqId = false ∨ fillsFirst s p then s
      else match allocFrame s cfg pool q k p.kfmt p.vfmt with
        | none => s
        | some (s', c, u, r) =>
          if s.tsUp c then
            s'.modPage k (fun x => { x with st := .filling, core := c, unit := u, row := r, gen := x.gen + 1, since := s.now })
          else s
    | _, _, _ => s)
/-- FILL_DONE: the page is in its frame with fresh check words; its header is checked; the slot stays as a clean copy. -/
def execFillDone (k : PageKey) (poisoned : List Nat) (s : State) : Out :=
  .next (
    match s.page? k, s.kvOf k.ctx with
    | some p, some (cfg, _) =>
      if p.st ≠ .filling ∨ s.tsUp p.core = false ∨ localHeld s p.core p.unit then s
      else
        let n := 128 * frameRows p.kfmt p.vfmt
        let bad (i : Nat) : Bool := poisoned.contains i && decide (i < n)
        let src := s.viewRead 0 2 p.slot (32 * n)
        let own := match s.seq? k.ctx k.seqId with | some q => q.part.val | none => 0
        let s := (src.1).charge p.core own (4 + (localCoord p.unit 0).ch.val) (500 * n)
        let s := localWrite s p.core p.unit (4096 * p.row) src.2.1 bad
        let s := (poisoned.filter (fun i => decide (i < n))).foldl (fun s i =>
          let s := match s.farTarget (p.slot + 32 * i) with
            | some (q, o) => s.log memFarPoison (srcIo q.val) (locRemote 2 (p.slot + 32 * i)) 0 (s.pageOwner k)
                [w64 q.val, w64 o, (match s.spillPool k.ctx with | some r => r.id.setWidth 64 | none => 0)]
            | none => s
          let a := localCoord p.unit (4096 * p.row + 32 * i)
          match s.regionAt p.core a, s.blockView p.core a with
          | some r, some (_, off) => s.regionLoses r (r.lineOf p.core off)
          | _, _ => s) s
        let h := leWords ((src.2.1.drop (headerAt p.kfmt p.vfmt)).take 256) 3
        let s := s.modPage k (fun x => { x with st := .resident, clean := true, gen := x.gen + 1 })
        if headerMatches cfg.kvHeads p h then s else losePages s 0 (fun x => x.key == k)
    | _, _ => s)

end Sys2Proof.Machine
end

