-- ==== Sys2Proof/Machine/Wire.lean ====
section
/-! DEFINITION. What the network's families share: connections, packets sent, withdraws (R359-R363, R366, R375). -/

namespace Sys2Proof.Machine

/-! ## Ports and connections -/

/-- A port. -/
def State.port (s : State) (p : PortId) : Port := s.net.ports.getD p.val Port.reset
/-- The state with a port changed. -/
def State.modPort (s : State) (p : PortId) (f : Port → Port) : State :=
  { s with net := { s.net with ports := s.net.ports.modify p.val f } }
/-- Ports of an IO die (Table 13.1). -/
def State.diePorts (s : State) (die : Nat) : Nat :=
  match (if die = 0 then s.net.regs.modeA else s.net.regs.modeB).toNat with | 0 => 4 | 1 => 8 | _ => 16
/-- The IO die of a port, when the port exists in the present modes. -/
def State.portDie (s : State) (p : PortId) : Option Nat :=
  if p.val < s.diePorts 0 then some 0 else if p.val < s.diePorts 0 + s.diePorts 1 then some 1 else none
/-- All port numbers. -/
def allPorts : List PortId := (List.range 32).map (Fin.ofNat 32)
/-- The spraying set (R361). -/
def State.spraySet (s : State) : List PortId := allPorts.filter (fun p => (s.port p).spraying)
/-- Whether the module speaks on the fabric (R358): a valid module number, a nonzero address. -/
def State.onFabric (s : State) : Bool := s.net.regs.valid && s.net.regs.addr.any (· != 0)
/-- A connection by its local number. -/
def State.conn? (s : State) (n : W32) : Option Conn := s.net.conns.find? (fun c => c.num == n)
/-- The state with a connection changed. -/
def State.modConn (s : State) (n : W32) (f : Conn → Conn) : State :=
  { s with net := { s.net with conns := updWhere (fun c => c.num == n) f s.net.conns } }
/-- Q0 and the submit_mask words of a peer's entry (R366). -/
def peerEntry (s : State) (m : BitVec 15) : State × Option (List W64) :=
  let base := bits (s.net.regs.peerHi ++ s.net.regs.peerLo) 0 60
  if s.net.regs.peerCount.toNat ≤ m.toNat then (s, none)
  else
    let r := s.viewRead 0 1 (base + 64 * m.toNat) 64
    let ws := leWords r.2.1 8
    (r.1, if bit (ws.getD 0 0) 63 && !r.2.2 then some ws else none)

/-! ## Sending (R359-R363) -/

/-- Puts a packet on the wire of a port; port 32 is none. A secure port counts it (R356). -/
def State.wire (s : State) (p : NetOut) : State :=
  let s := { s with net := { s.net with out := s.net.out ++ [p] } }
  if p.port < 32 then s.modPort (Fin.ofNat 32 p.port) (fun x => if x.secure then { x with pn := x.pn + 1 } else x) else s
/-- A packet without a psn. -/
def sendCtl (s : State) (type : Nat) (flags : Byte) (peer : BitVec 15) (port : Nat) (conn : W32) (a : W64) (b : W32) (payload : List W64) :
    State :=
  s.wire { type := type, flags := flags, peer := peer.toNat, port := port, conn := conn, psn := 0, a := a, b := b, payload := payload,
           head := none, poison := false }
/-- The port a packet goes out on: the spraying set in turn, without the ports on which the peer is lost; 32 while there is none. -/
def State.sprayPort (s : State) (peer : BitVec 15) (n : Nat) : Nat :=
  let l := s.spraySet.filter (fun p => !(s.net.pairs.any (fun x => x.peer == peer && x.port == p && x.st == 2)))
  match l[n % Nat.max 1 l.length]? with
  | some p => p.val
  | none => 32
/-- Bytes of a packet that count against the window: header and payload. -/
def NetOut.bytes (x : NetOut) : Nat := 32 + 8 * x.payload.length
/-- PACE and WITHDRAW leave ahead of data (R362). -/
def NetOut.urgent (x : NetOut) : Bool := x.type == 4 || x.type == 5
/-- Whether a connection's window takes a packet (R363). -/
def Conn.fits (c : Conn) (x : NetOut) : Bool :=
  c.outstanding.isEmpty || x.urgent || decide ((c.outstanding.map (·.bytes)).sum + x.bytes ≤ c.window)
/-- A sequenced packet leaves with the connection's next psn. -/
def place (s : State) (c : Conn) (x : NetOut) : State :=
  let p := s.sprayPort c.peer c.nextPsn.toNat
  let s := s.wire { x with peer := c.peer.toNat, port := p, conn := c.peerConn, psn := c.nextPsn }
  s.modConn c.num (fun c => { c with
    nextPsn := c.nextPsn + 1, lastUse := s.now,
    outstanding := c.outstanding ++
      [{ psn := c.nextPsn, port := Fin.ofNat 32 p, stamp := s.now, bytes := x.bytes, resent := 0, later := 0 }] })
/-- A sequenced packet of a connection: it waits before CONNECT_ACK and while the window is full. -/
def sendSeq (s : State) (n : W32) (x : NetOut) : State :=
  match s.conn? n with
  | none => s
  | some c =>
    if c.st = 2 ∧ (x.urgent ∨ (c.waiting.isEmpty ∧ c.fits x)) then place s c x
    else s.modConn n (fun c => { c with waiting := c.waiting ++ [x] })
/-- Sends what waits and now fits. -/
def pump : Nat → W32 → State → State
  | 0, _, s => s
  | fuel + 1, n, s =>
    match s.conn? n with
    | some c =>
      match c.waiting with
      | x :: rest => if c.st = 2 ∧ c.fits x then pump fuel n (place (s.modConn n (fun c => { c with waiting := rest })) c x) else s
      | [] => s
    | none => s
/-- Sends what waits on a connection. -/
def State.pumpConn (s : State) (n : W32) : State :=
  pump ((match s.conn? n with | some c => c.waiting.length | none => 0)) n s
/-- A sequenced packet before it has a connection's fields. -/
def pktOf (type : Nat) (a : W64) (b : W32) (payload : List W64) : NetOut where
  type := type
  flags := 0
  peer := 0
  port := 32
  conn := 0
  psn := 0
  a := a
  b := b
  payload := payload
  head := none
  poison := false
/-- A fresh connection. -/
def newConn (s : State) (peer : BitVec 15) (part : PartId) (st : Nat) (peerConn : W32) (mask : List W64) : Conn where
  num := freshId s.free (s.net.conns.map (·.num))
  peerConn := peerConn
  peer := peer
  part := part
  st := st
  attempts := 0
  nextAttempt := s.now
  nextPsn := 0
  recvPsn := 0
  recvAhead := []
  unacked := 0
  oldestUnacked := 0
  outstanding := []
  ceSeen := 0
  ceAcked := 0
  acked := 0
  echo := false
  window := 4096
  srttUs := 0
  lastUse := s.now
  lastRound := s.now
  roundCe := 0
  mask := mask
  lastTs := 0
  waiting := []
/-- The port on which a connection is opened: one of the lower-numbered IO die with a port up, while its NP runs (R360). -/
def openingPort (s : State) : Option PortId :=
  match s.spraySet with
  | p :: _ => (match s.portDie p with | some d => if s.procUp (10 + d) then some p else none | none => none)
  | [] => none
/-- Liveness pairs of a peer: one for each port. -/
def State.addPairs (s : State) (peer : BitVec 15) : State :=
  let old := s.net.pairs
  let fresh := s.spraySet.filter (fun p => !(old.any (fun x => x.peer == peer && x.port == p)))
  let pair (p : PortId) : Pair := { peer := peer, port := p, st := 0, lastAck := s.now, lastProbe := 0 }
  { s with net := { s.net with pairs := old ++ fresh.map pair } }
/-- An NP that can sends a connection's CONNECT. -/
def tryConnect (s : State) (c : Conn) : State :=
  match openingPort s with
  | none => s
  | some p =>
    let s := s.modConn c.num (fun c => { c with attempts := c.attempts + 1, nextAttempt := s.now + 100000 })
    sendCtl (s.addPairs c.peer) 6 0 c.peer p.val 0 (w64 (c.num.toNat * 2 ^ 32 + c.part.val)) 0 []
/-- The connection to a peer for a partition: the one there is, a closed one tried again, or a new one with its CONNECT (R360). -/
def connTo (s : State) (peer : BitVec 15) (part : PartId) : State × Option W32 :=
  match s.net.conns.find? (fun c => c.peer == peer && c.part == part) with
  | some c =>
    if c.st = 0 then
      let s := s.modConn c.num (fun c => { c with st := 1, attempts := 0, nextAttempt := s.now })
      (tryConnect s c, some c.num)
    else (s, some c.num)
  | none =>
    let e := peerEntry s peer
    match e.2, decide (e.1.net.conns.length < 65536) with
    | some ws, true =>
      let s := e.1
      let c := newConn s peer part 1 0 (ws.drop 4)
      let s := { s with net := { s.net with conns := s.net.conns ++ [c] }, free := s.free + 1 }
      (tryConnect s c, some c.num)
    | _, _ => (e.1, none)
/-- Sends a packet to a peer for a partition. -/
def sendTo (s : State) (peer : BitVec 15) (part : PartId) (x : NetOut) : State :=
  let r := connTo s peer part
  match r.2 with
  | some n => sendSeq r.1 n x
  | none => r.1

/-! ## Completions owed to peers (R367) -/

/-- Words Q0-Q3 of a completion record (Table 12.10a) with a phase. -/
def recWords (r : Rec) (phase : Bool) : List W64 :=
  [w64 (r.seq.toNat * 2 ^ 32 + r.status.toNat * 2 ^ 16 + r.type.toNat * 2 ^ 8 + (if r.poison then 8 else 0) + (if r.held then 4 else 0)
        + (if r.last then 2 else 0) + (if phase then 1 else 0)),
   r.tag, r.workItem ++ r.index, w64 (r.core * 2 ^ 55)]
/-- A record goes back to the peer that submitted its descriptor; a lost peer's is discarded. -/
def sendComplete (s : State) (ctx : CtxId) (n : W32) (r : Rec) : State :=
  sendSeq s n (pktOf 0x0A (w64 (ctx.val * 2 ^ 56 + 1)) 0 (recWords r false))

end Sys2Proof.Machine
end

