-- ==== Sys2Proof/Machine/Rings.lean ====
section
/-! DEFINITION. Records and interrupts, the hello, doorbells, descriptors, host loss (R322-R340, R343-R348). -/

namespace Sys2Proof.Machine

/-! ## Functions (R328) -/

/-- Whether Kegor reads and writes a function's rings (Table 12.6). -/
def Fn.attached (k : Fn) : Bool := k.st == .attached || (k.st == .safe && k.before == .attached)
/-- Whether a function is LOST or REFUSED, or was when SAFE began: its contexts hold their records and park (R327, R345). -/
def Fn.isLost (k : Fn) : Bool :=
  let st := if k.st = .safe then k.before else k.st
  st == .lost || st == .refused
/-- Contexts bound to a function. -/
def State.ctxsOf (s : State) (f : FnId) : List Ctx := s.ctxs.filter (fun x => x.fn == f)
/-- The partition of a function (R322). -/
def partOfFn (f : FnId) : PartId := f
/-- The function's location word: it carries no location; the number goes into the detail (R351). -/
def fnWord (f : FnId) : W64 := w64 f.val

/-! ## Completion records (R334, R338, R343) -/

/-- A record of a descriptor. -/
def doneRec (d : Desc) (status : BitVec 16) (tag : W64) (workItem index : W32) (core : Nat) (poison : Bool) : Rec where
  seq := d.seq
  status := status
  type := d.type
  poison := poison
  held := false
  last := decide (d.recsLeft ≤ 1)
  irq := d.irq && decide (d.recsLeft ≤ 1)
  tag := tag
  workItem := workItem
  index := index
  core := core
/-- The descriptor of an identity, among those fetched and not completed. -/
def Ctx.desc? (x : Ctx) (i : DescId) : Option Desc := x.descs.find? (fun d => d.seq == i.1 && d.peer == i.2)
/-- The last completed sequence number: one before the oldest descriptor of the ring that has not completed (R334). -/
def Ctx.recount (x : Ctx) : Ctx :=
  { x with lastCompleted := match x.descs.find? (fun d => d.peer.isNone) with | some d => d.seq - 1 | none => x.lastFetched }
/-- The error record, written once every fetched descriptor has completed (R343). -/
def Ctx.settleError (x : Ctx) : Ctx :=
  if x.errPending ∧ x.descs.isEmpty then
    { x with errPending := false, recs := x.recs ++ [{
        seq := x.errSeq, status := x.errStatus, type := 0, poison := false, held := false, last := true, irq := true, tag := 0,
        workItem := 0, index := 0, core := 0 }] }
  else x
/-- A descriptor of a context has one record less to produce. -/
def Ctx.countRec (x : Ctx) (i : DescId) : Ctx :=
  let mine (d : Desc) : Bool := d.seq == i.1 && d.peer == i.2
  let less (d : Desc) : Desc := { d with recsLeft := d.recsLeft - 1 }
  Ctx.recount { x with descs := (updWhere mine less x.descs).filter (fun d => decide (0 < d.recsLeft)) }
/-- One record of a descriptor is produced: it waits for its place in the completion ring, goes to the peer that submitted the
descriptor, or is left out under quiet. -/
def State.record (s : State) (c : CtxId) (i : DescId) (status : BitVec 16) (tag : W64 := 0) (workItem index : W32 := 0)
    (core : Nat := 0) (poison : Bool := false) : State :=
  match s.ctx? c with
  | none => s
  | some x => match x.desc? i with
    | none => s
    | some d =>
      let r := doneRec d status tag workItem index core poison
      let r := { r with held := (s.fn x.fn).isLost }
      let quiet := d.quiet && status == stOk && (d.type == 0 || d.type == 3 || d.type == 4)
      let s := s.modCtx c (fun x => (x.countRec i))
      let s := match d.peer with
        | some n => sendComplete s c n r
        | none => if quiet then s else s.modCtx c (fun x => { x with recs := x.recs ++ [r] })
      s.modCtx c Ctx.settleError
/-- A descriptor completes with one record in place of all it could have produced. -/
def State.recordLast (s : State) (c : CtxId) (i : DescId) (status : BitVec 16) (tag : W64 := 0) : State :=
  let mine (d : Desc) : Bool := d.seq == i.1 && d.peer == i.2
  (s.modCtx c (fun x => { x with descs := updWhere mine (fun d => { d with recsLeft := 1 }) x.descs })).record c i status tag
/-- A context enters ERROR (R330, R334, R343). -/
def ctxError (s : State) (x : Ctx) (status : BitVec 16) (seq : W32) : State :=
  let s := s.modCtx x.num (fun x => { x with st := .error, errStatus := status, errSeq := seq, errPending := true }.settleError)
  s.log ringCtxError (srcIo 0) 0 status (some (x.num, x.part)) [fnWord x.fn, w64 x.num.val, status.setWidth 64, seq.setWidth 64]

/-- COMPLETION_WRITE: the oldest record, or else the oldest notice, goes into a free entry of the completion ring; Q0 goes last. -/
def execCompletionWrite (ctx : CtxId) (s : State) : Out :=
  .next (
    match s.ctx? ctx with
    | none => s
    | some x =>
      let f := s.fn x.fn
      if f.attached = false ∨ x.st = .parked ∨ 2 ^ x.cqLog2 ≤ (x.cqTail - x.cqHead).toNat then s
      else match x.recs ++ x.notices with
        | [] => s
        | r :: _ =>
          let i := x.cqTail.toNat
          let at_ := x.cqBase.toNat + 32 * (i % 2 ^ x.cqLog2)
          let ws := recWords r (i / 2 ^ x.cqLog2 % 2 == 0)
          let s := (s.hostPut (at_ + 8) (ws.drop 1)).hostPut at_ (ws.take 1)
          let notice := x.recs.isEmpty
          let error := x.st == .error && !x.errPending && r.type == 0 && r.status == x.errStatus && r.seq == x.errSeq
          let n := x.unsignalled + 1
          let now := (r.irq && x.timerUs != 0) || error || (x.timerUs != 0 && decide (x.modCount ≤ n))
          let s := s.modCtx ctx (fun x => { x with
            cqTail := x.cqTail + 1, recs := x.recs.drop 1, notices := if notice then x.notices.drop 1 else x.notices,
            unsignalled := if now then 0 else n, firstUnsignalled := if x.unsignalled = 0 then s.now else x.firstUnsignalled })
          let s := if notice ∧ r.status = stStateLost then
              s.modRegion (r.tag.setWidth 32) (fun y => if y.todo.isEmpty then { y with recovering := false } else y) else s
          if now then s.signal x.fn x.vector else s)
/-- MODERATION_TIMER (R339). -/
def execModerationTimer (ctx : CtxId) (s : State) : Out :=
  .next (
    match s.ctx? ctx with
    | some x =>
      if x.timerUs ≠ 0 ∧ 0 < x.unsignalled ∧ x.firstUnsignalled + 1000 * x.timerUs ≤ s.now ∧ (s.fn x.fn).attached then
        (s.modCtx ctx (fun x => { x with unsignalled := 0 })).signal x.fn x.vector
      else s
    | none => s)
/-- MSIX_UNMASK: a vector of the function's table is unmasked; a pending bit sends its message while the function is attached. -/
def execMsixUnmask (fn : FnId) (vector : Fin 64) (s : State) : Out :=
  .next (
    let k := s.fn fn
    if fn ≠ 0 ∧ (16 ≤ vector.val ∨ k.enabled = false) then s
    else
      let b := BitVec.ofNat 64 (2 ^ vector.val)
      let s := s.modFn fn (fun k => { k with masked := k.masked &&& ~~~b })
      if k.pba.getLsbD vector.val ∧ k.attached then
        { s.modFn fn (fun k => { k with pba := k.pba &&& ~~~b }) with msix := s.msix ++ [(fn.val, vector.val)] }
      else s)

/-! ## Cancelling and freeing a context (R343, R386) -/

/-- Whether a work item of a context is queued, running, pre-empted or about to be reported. -/
def ctxWorks (s : State) (c : CtxId) : Bool :=
  let mine (i : WorkItem) : Bool := i.context == c
  s.sched.waiting.any mine || s.sched.outcomes.any (fun o => mine o.item)
  || s.cores.any (fun k => k.2.item.any mine || k.2.localQ.any mine || k.2.saved.any (fun v => mine v.item))
/-- Unpins the pages that a work item names (R276). -/
def unpin (s : State) (i : WorkItem) : State :=
  i.pages.foldl (fun s k => s.modPage k (fun p => { p with pins := p.pins - 1 })) s
/-- Work items that have not started end with a status; with records, or without. -/
def dropItem (status : BitVec 16) (records : Bool) (s : State) (i : WorkItem) : State :=
  let s := unpin s i
  match i.stepPhase with
  | some _ => s
  | none => if records then s.record i.context (i.seq, i.peer) status i.tag i.workItem 0xFFFFFFFF 0 else s
/-- Cancels what a test picks among the work items that have not started, and sets flag 31 in the cores that run such items. -/
def cancelWhere (s : State) (status : BitVec 16) (records : Bool) (hit : WorkItem → Bool) : State :=
  let gone := s.sched.waiting.filter hit ++ s.cores.flatMap (fun k => k.2.localQ.filter hit)
  let s := { s with sched := { s.sched with waiting := s.sched.waiting.filter (fun i => !(hit i)) } }
  let cut (k : Core) : Core :=
    { k with localQ := k.localQ.filter (fun i => !(hit i)), flags := if k.item.any hit then k.flags ||| 0x80000000 else k.flags }
  let s := { s with cores := s.cores.map (fun k => (k.1, cut k.2)) }
  gone.foldl (dropItem status records) s
/-- The steps of a context that have not completed end: each sequence still in the batch gets a record. -/
def cancelSteps (s : State) (c : CtxId) (status : BitVec 16) (records : Bool) : State :=
  let mine := s.sched.steps.filter (fun r => r.ctx == c)
  let s := { s with sched := { s.sched with steps := s.sched.steps.filter (fun r => r.ctx != c) } }
  if records then
    mine.foldl (fun s r => (r.batch.filter (fun b => !(r.gone.contains b.1))).foldl (fun s b =>
      s.record c b.2 status (b.1.setWidth 64)) s) s
  else s
/-- Zeroes a byte range of a view. -/
def zeroLines (s : State) (r : Region) : State :=
  let cores := if r.view = 0 then (List.range (r.lastCore + 1 - r.firstCore)).map (fun i => r.firstCore + i) else [0]
  cores.foldl (fun s c => (List.range r.lines).foldl (fun s i =>
    s.viewWrite (Fin.ofNat 512 c) r.view (r.base + 4096 * i) (List.replicate 4096 0) false) s) s
/-- A region is destroyed: its lines are zeroed before any region covers them again. -/
def freeRegion (s : State) (r : Region) : State :=
  let s := zeroLines s r
  { s with regions := s.regions.filter (fun x => x.id != r.id) }
/-- A record of an admin command: written to the admin completion ring, vector 0 signalled (R323, R329, R339). -/
def adminDone (s : State) (f : FnId) (seq : W32) (type : Byte) (status : BitVec 16) (tag : W64) : State :=
  let k := s.fn f
  if k.attached = false then s
  else
    let r : Rec := { seq := seq, status := status, type := type, poison := false, held := false, last := true, irq := true, tag := tag,
                     workItem := 0, index := 0, core := 0 }
    let at_ := k.adminCq.toNat + 32 * (k.adminRecs % 2 ^ k.adminCqLog2)
    let ws := recWords r (k.adminRecs / 2 ^ k.adminCqLog2 % 2 == 0)
    let s := (s.hostPut (at_ + 8) (ws.drop 1)).hostPut at_ (ws.take 1)
    (s.modFn f (fun k => { k with adminRecs := k.adminRecs + 1 })).signal f 0
/-- The semaphores of a partition's ranges become 0 (R120). -/
def zeroSems (s : State) (p : PartId) : State :=
  let q := s.part p
  { s with sems := s.sems.filter (fun x => !(decide (q.semFirst ≤ x.1 % 4096) && decide (x.1 % 4096 < q.semFirst + q.semCount))) }
/-- An FLR ends once every context of the partition is destroyed: the semaphores are 0 and the function is READY (R348, R485). -/
def settleFlr (s : State) (f : FnId) : State :=
  let k := s.fn f
  if k.flr = false ∨ s.ctxs.any (fun x => x.part == partOfFn f) then s
  else
    let fresh : Fn := { Fn.reset (f == 0) with
      enabled := k.enabled, helloCount := k.helloCount, masked := k.masked, pba := k.pba,
      st := if k.st = .safe then .safe else .ready, before := .ready }
    (zeroSems s (partOfFn f)).modFn f (fun _ => fresh)
/-- A closing context whose work has ended is freed: sequences, tables, sounding levels, regions; then its destroy completes. -/
def settleClose (s : State) (c : CtxId) : State :=
  match s.ctx? c with
  | none => s
  | some x =>
    if x.st ≠ .closing ∨ ctxWorks s c ∨ x.descs.isEmpty = false then s
    else
      let s := (s.regions.filter (fun r => r.ctx == c)).foldl freeRegion s
      let s := { s with
        seqs := s.seqs.filter (fun q => q.ctx != c), pages := s.pages.filter (fun p => p.key.ctx != c),
        extents := s.extents.filter (fun e => e.key.ctx != c), tables := s.tables.filter (fun t => t.ctx != c),
        ctxs := s.ctxs.filter (fun y => y.num != c),
        sched := { s.sched with hists := s.sched.hists.filter (fun h => h.ctx != c), levels := s.sched.levels.filter (fun l => l.ctx != c),
                                steps := s.sched.steps.filter (fun r => r.ctx != c) } }
      let s := match x.destroySeq with
        | some (f, q) => adminDone s f q 0x41 stOk 0
        | none => s
      settleFlr (settleFlr s x.fn) x.part
/-- A context enters CLOSING (R343). -/
def closeCtx (s : State) (c : CtxId) (by_ : Option (FnId × W32)) : State :=
  let s := s.modCtx c (fun x => { x with st := .closing, destroySeq := by_, errPending := false })
  let s := cancelSteps (cancelWhere s stCancelled true (fun i => i.context == c)) c stCancelled true
  let left : List Desc := match s.ctx? c with | some x => x.descs.filter (fun (d : Desc) => !d.started) | none => []
  let s := left.foldl (fun (s : State) (d : Desc) => s.recordLast c (d.seq, d.peer) stCancelled) s
  settleClose s c

/-! ## Host loss (R344, R345) -/

/-- What a context has in hand when its function is lost: COPY ends, what waits to be written is held. -/
def loseCtx (s : State) (x : Ctx) : State :=
  let copies := x.descs.filter (fun d => d.type == 3)
  let s := copies.foldl (fun s d => s.recordLast x.num (d.seq, d.peer) stHostLost) s
  s.modCtx x.num (fun x => { x with recs := x.recs.map (fun r => { r with held := true }) })
/-- HOST_LOST for a function. Causes: 0 heartbeat, 1 a read of the host block failed, 2 Bus Master Enable or D-state, 3 link,
4 a hello while attached, 5 FLR (log entry 24). -/
def loseHost (s : State) (f : FnId) (cause : Nat) : State :=
  let k := s.fn f
  if k.attached = false then s
  else
    let lose (k : Fn) : Fn := if k.st = .safe then { k with before := .lost } else { k with st := .lost }
    let s := (s.ctxsOf f).foldl loseCtx (s.modFn f lose)
    let xs := s.ctxsOf f
    s.log ringHostLost srcMp 0 0 none
      [fnWord f, w64 cause, w64 (xs.filter (fun x => !x.net)).length, w64 (xs.map (fun x => x.recs.length)).sum]
/-- HOST_LOST: Bus Master Enable of the function is cleared, or the function leaves D0. -/
def execHostLost (fn : FnId) (s : State) : Out := .next (loseHost s fn 2)
/-- PCIE_LINK_DOWN. -/
def execPcieLinkDown (s : State) : Out :=
  .next ((List.range 16).foldl (fun s i => loseHost s (Fin.ofNat 16 i) 3) s)
/-- HEARTBEAT_CHECK: the third read without a change declares HOST_LOST; reads during an MP restart are not made. -/
def execHeartbeatCheck (fn : FnId) (word : HostRead) (s : State) : Out :=
  .next (
    let k := s.fn fn
    if k.attached = false ∨ s.mpUp = false ∨ s.now < k.beatAt + k.heartbeatMs.toNat * 1000000 then s
    else match word with
      | .failed => loseHost s fn 1
      | .words ws =>
        let w := ws.getD 0 0
        let n := if k.beatWord = some w then k.beatSame + 1 else 0
        let s := s.modFn fn (fun k => { k with beatWord := some w, beatSame := n, beatAt := s.now })
        if 3 ≤ n then loseHost s fn 0 else s)

/-! ## The hello (R325-R327, R346) -/

/-- Whether a hello's fields lie in their ranges (Table 12.5). -/
def helloOk (f : FnId) (ws : List W64) : Bool :=
  let q (i : Nat) : W64 := ws.getD i 0
  let hb := bits (q 0) 0 16
  let log2 (n : Nat) : Bool := decide (6 ≤ n) && decide (n ≤ 12)
  bits (q 0) 32 32 == 0x464A4843 && (hb == 0 || (decide (10 ≤ hb) && decide (hb ≤ 1000)))
  && bits (q 1) 0 12 == 0 && bits (q 2) 0 12 == 0 && bits (q 3) 0 6 == 0 && log2 (bits (q 4) 8 5) && log2 (bits (q 4) 0 5)
  && (f != 0 || q 5 == 0 || (bits (q 5) 0 12 == 0 && log2 (bits (q 6) 0 5)))
/-- The address of a function's host block (R480). -/
def hostBlock (k : Fn) : Nat := (k.hostHi ++ k.hostLo).toNat
/-- Writes a reply, Q1-Q31 first (R327). -/
def putReply (s : State) (f : FnId) (refused : Bool) (entries : Nat) : State :=
  let k := s.fn f
  let q0 := (if refused then 2 ^ 56 else 0) + 2 * 2 ^ 40 + 3 * 2 ^ 32 + k.agreedMinor.toNat * 2 ^ 24 + f.val * 2 ^ 20 + f.val * 2 ^ 16
    + k.helloCount.toNat
  let q1 := entries * 2 ^ 32 + (256 - s.ctxs.length) * 2 ^ 16 + k.heartbeatMs.toNat
  let rest := [w64 q1, k.driverTag, w64 (islandTime s srcMp)] ++ List.replicate 28 0
  (s.hostPut (hostBlock k + 264) rest).hostPut (hostBlock k + 256) [w64 q0]
/-- The number of a context state (Table 12.12). -/
def ctxStNo : CtxSt → Nat
  | .open_ => 0
  | .error => 1
  | .parked => 2
  | .closing => 3
/-- The words of a snapshot entry (Table 12.12). -/
def snapEntry (x : Ctx) : List W64 :=
  [w64 (x.num.val * 2 ^ 56 + ctxStNo x.st * 2 ^ 52 + (if x.net then 2 ^ 51 + 2 ^ 50 else 0) + x.recs.length * 2 ^ 16
        + (if x.st = .error then x.errStatus.toNat else 0)),
   x.lastCompleted ++ x.lastFetched]
/-- The snapshot and the reply go once every host-bound context that is open has parked; the function is attached (R346). -/
def settleHello (s : State) (f : FnId) : State :=
  let k := s.fn f
  if k.pendingHello = false ∨ (s.ctxsOf f).any (fun x => !x.net && x.st == .open_) then s
  else
    let xs := s.ctxsOf f
    let ready (k : Fn) : Fn := { k with
      st := .attached, helloCount := k.helloCount + 1, busy := false, pendingHello := false, beatWord := none, beatSame := 0,
      beatAt := s.now, adminRecs := 0, adminInterval := 1, adminPollAt := s.now }
    let s := s.modFn f ready
    let s := if xs.isEmpty then s else s.hostPut (hostBlock k + 4096) (xs.flatMap snapEntry)
    let s := putReply s f false xs.length
    let k := s.fn f
    s.log ringHostAttach srcMp 0 0 none
      [fnWord f, w64 (k.drvMajor.toNat * 256 + k.drvMinor.toNat), k.helloCount.setWidth 64, w64 xs.length]
/-- The MP judges a hello. Reasons of a refusal: 0 magic or range, 1 major version (log entry 24). -/
def judgeHello (s : State) (f : FnId) (ws : List W64) : State :=
  let q (i : Nat) : W64 := ws.getD i 0
  let major := bits (q 0) 24 8
  let minor := bits (q 0) 16 8
  let s := s.modFn f (fun k => { k with drvMajor := BitVec.ofNat 8 major, drvMinor := BitVec.ofNat 8 minor, driverTag := q 7 })
  let s := loseHost s f 4
  if helloOk f ws ∧ major = 2 then
    let take (k : Fn) : Fn := { k with
      agreedMinor := BitVec.ofNat 8 (Nat.min minor 3), heartbeatMs := if bits (q 0) 0 16 = 0 then 100 else (q 0).setWidth 16,
      adminSq := q 1, adminCq := q 2, adminSlot := q 3, adminSqLog2 := bits (q 4) 8 5, adminCqLog2 := bits (q 4) 0 5,
      logRing := if f = 0 then q 5 else 0, logLog2 := if f = 0 then bits (q 6) 0 5 else 0, busy := true, pendingHello := true }
    let s := s.modFn f take
    let s := if f = 0 then { s with err := { s.err with mirrorNext := 0, mirrorUnsig := none } } else s
    settleHello s f
  else
    let s := s.modFn f (fun k => { k with st := .refused, agreedMinor := 0, heartbeatMs := 0, busy := false, pendingHello := false })
    let s := putReply s f true 0
    s.log ringHelloRefused srcMp 0 stRefused none
      [fnWord f, w64 (major * 256 + minor), 0x0203, w64 (if helloOk f ws then 1 else 0)]
/-- RING_HELLO_GO: ignored while a hello is processed; while the MP restarts, `busy` reads 1 and the MP reads the block when it is
back. A read that fails declares HOST_LOST (R344). -/
def execRingHelloGo (fn : FnId) (hello : HostRead) (s : State) : Out :=
  .next (
    let k := s.fn fn
    if k.enabled = false ∨ k.st = .init ∨ k.st = .safe ∨ k.pendingHello ∨ k.flr then s
    else if s.mpUp = false then s.modFn fn (fun k => { k with busy := true })
    else match hello with
      | .words ws => judgeHello s fn ws
      | .failed =>
        let s := loseHost s fn 1
        s.modFn fn (fun k => { k with st := .lost, busy := false }))
/-- CONTEXT_PARK (R345, step 5). -/
def execContextPark (ctx : CtxId) (s : State) : Out :=
  .next (
    match s.ctx? ctx with
    | some x =>
      if x.st = .open_ ∧ x.net = false ∧ (s.fn x.fn).isLost ∧ x.descs.isEmpty ∧ s.mpUp then
        settleHello (s.modCtx ctx (fun x => { x with st := .parked })) x.fn
      else s
    | none => s)
/-- The ring engine's reads per ms at the intervals in force, in bytes: 64 for each slot polled (R331). -/
def pollLoad (s : State) : Nat :=
  (s.ctxs.map (fun x => if x.st = .open_ ∧ (s.fn x.fn).attached then 64000 / Nat.max 1 x.interval else 0)).sum
  + (s.fns.map (fun k => if k.attached then 64000 / Nat.max 1 k.adminInterval else 0)).sum
/-- The interval after a poll that found nothing: doubled, up to max_us. -/
def nextInterval (max_ n : Nat) : Nat := if max_ < 2 * n then max_ else 2 * n
/-- Whether a function's rings run: attached, and not in SAFE (Table 12.13). -/
def State.ringRuns (s : State) (f : FnId) : Bool := (s.fn f).st == .attached && !s.err.safe
/-- DOORBELL_POLL: a due slot is read; a slot that breaks a rule of R330 puts its context into ERROR. -/
def execDoorbellPoll (ctx : CtxId) (tail head : W32) (s : State) : Out :=
  .next (
    match s.ctx? ctx with
    | none => s
    | some x =>
      if x.st ≠ .open_ ∨ s.ringRuns x.fn = false ∨ s.now < x.nextPoll then s
      else if 2 ^ x.sqLog2 < (tail - x.sqHead).toNat ∨ (x.cqTail - x.cqHead).toNat < (head - x.cqHead).toNat then
        ctxError s x stRingOverrun x.lastFetched
      else
        let n := if tail ≠ x.sqTail then 1 else nextInterval (s.fn x.fn).pollMax.toNat x.interval
        let s := s.modCtx ctx (fun x => { x with sqTail := tail, cqHead := head, interval := n })
        let load := pollLoad s
        let wait := if 1260000 < load then (n * 1000 * load + 1259999) / 1260000 else n * 1000
        let s := s.modCtx ctx (fun x => { x with nextPoll := s.now + wait })
        if 1260000 < load then s.modFn x.fn (fun k => { k with stretched := true }) else s)
/-- RING_WAKE (R332). -/
def ringWake (s : State) (f : FnId) (v : W32) : State :=
  if s.ringRuns f = false then s
  else if bit v 8 then s.modFn f (fun k => { k with adminInterval := 1, adminPollAt := s.now })
  else
    let c : CtxId := Fin.ofNat 256 (bits v 0 8)
    match s.ctx? c with
    | some x => if x.fn = f then s.modCtx c (fun x => { x with interval := 1, nextPoll := s.now }) else s
    | none => s

/-! ## Descriptors (R333-R337) -/

/-- The records a descriptor can produce; none when it breaks Table 12.9. -/
def descCount (ws : List W64) : Option Nat :=
  let q (i : Nat) : W64 := ws.getD i 0
  match bits (q 0) 56 8 with
  | 0 => some 1
  | 1 =>
    let n := bits (q 2) 48 16
    if 1 ≤ n ∧ n ≤ 4096 ∧ bits (q 2) 39 9 + bits (q 2) 29 10 ≤ 512 then some n else none
  | 2 => if 1 ≤ bits (q 2) 0 16 ∧ bits (q 2) 0 16 ≤ 4096 then some (bits (q 2) 0 16) else none
  | 3 => if bits (q 1) 0 6 = 0 ∧ bits (q 3) 0 6 = 0 ∧ bits (q 3) 0 32 ≤ 2 ^ 30 then some 1 else none
  | 4 => if 1 ≤ bits (q 1) 56 8 ∧ bits (q 1) 56 8 ≤ 4 then some 1 else none
  | 5 => some 1
  | 6 => if bits (q 1) 56 8 = 1 ∨ bits (q 1) 56 8 = 2 then some 1 else none
  | _ => none
/-- The records that a context's fetched descriptors can still produce, and those held for it (R335). -/
def Ctx.load (x : Ctx) : Nat := (x.descs.map (·.recsLeft)).sum + x.recs.length
/-- A fetched descriptor. -/
def descOf (ws : List W64) (n : Nat) (peer : Option W32) : Desc where
  seq := (ws.getD 0 0).setWidth 32
  type := BitVec.ofNat 8 (bits (ws.getD 0 0) 56 8)
  irq := bit (ws.getD 0 0) 50
  quiet := bit (ws.getD 0 0) 49
  fence := bit (ws.getD 0 0) 48
  words := ws
  started := false
  recsLeft := n
  peer := peer
/-- A descriptor is taken; an invalid one completes without effect. -/
def takeDesc (s : State) (c : CtxId) (ws : List W64) (peer : Option W32) : State :=
  let n := descCount ws
  let n := if peer.isSome ∧ bits (ws.getD 0 0) 56 8 = 3 then none else n
  let d := descOf ws (n.getD 1) peer
  let s := s.modCtx c (fun x => Ctx.recount { x with descs := x.descs ++ [d] })
  if n.isNone then s.record c (d.seq, peer) stDescInvalid else s
/-- DESC_FETCH: in SAFE a new descriptor completes with ST_SAFE (R458). -/
def execDescFetch (ctx : CtxId) (desc : List W64) (s : State) : Out :=
  .next (
    match s.ctx? ctx with
    | none => s
    | some x =>
      let n := (descCount desc).getD 1
      if x.st ≠ .open_ ∨ (s.ringRuns x.fn = false ∧ (s.err.safe = false ∨ (s.fn x.fn).attached = false)) ∨ x.sqHead = x.sqTail ∨ 4096 < x.load + n then s
      else
        let seq : W32 := (desc.getD 0 0).setWidth 32
        if seq ≠ x.nextSeq then ctxError s x stRingSeq seq
        else
          let s := s.modCtx ctx (fun x => { x with sqHead := x.sqHead + 1, nextSeq := x.nextSeq + 1, lastFetched := seq })
          let s := s.hostPut (x.slot.toNat + 32) [(x.sqHead + 1).setWidth 64]
          let s := takeDesc s ctx desc none
          if s.err.safe then s.recordLast ctx (seq, none) stSafe else s)
/-- The descriptor of a type that may start now: its fence is met (R333). Of two with one number the first fetched is meant. -/
def startable (s : State) (c : CtxId) (seq : W32) (type : Nat) : Option (Ctx × Desc) :=
  match s.ctx? c with
  | none => none
  | some x =>
    match x.descs.find? (fun d => d.seq == seq && d.type.toNat == type && !d.started) with
    | some d =>
      if x.st = .closing ∨ s.err.safe ∨ (d.fence && (x.descs.head?).any (fun e => e.seq != d.seq || e.peer != d.peer)) then none
      else some (x, d)
    | none => none
/-- Marks a descriptor as started. -/
def markStarted (s : State) (c : CtxId) (d : Desc) : State :=
  s.modCtx c (fun x => { x with descs := updWhere (fun e => e.seq == d.seq && e.peer == d.peer) (fun e => { e with started := true }) x.descs })
/-- The identity of a descriptor. -/
def Desc.id (d : Desc) : DescId := (d.seq, d.peer)
/-- The lowest core of a partition. -/
def lowCore (s : State) (p : PartId) : Nat := (s.part p).cores.foldl Nat.min 511
/-- Whether the leader scheduler of a descriptor runs, or another took over its tower (R383, R400). -/
def leaderUp (s : State) (first : Nat) : Bool := s.tsServes (first / 64 % 8)

/-- DESC_NOP. -/
def execDescNop (ctx : CtxId) (seq : W32) (s : State) : Out :=
  .next (
    match startable s ctx seq 0 with
    | some (_, d) => s.record ctx d.id stOk
    | none => s)

/-! ## COPY (R337) -/

/-- Host words that a read returned, at most n bytes; a short answer failed after them. -/
def hostWords (h : HostRead) (n : Nat) : List Byte × Bool :=
  match h with
  | .words ws => ((ws.flatMap (fun w => natLe 8 w.toNat)).take n, decide (n ≤ 8 * ws.length))
  | .failed => ([], false)
/-- COPY: the remote range is checked as R220 states; a range that a channel holds waits. -/
def execCopy (ctx : CtxId) (seq : W32) (src : HostRead) (s : State) : Out :=
  .next (
    match startable s ctx seq 3 with
    | none => s
    | some (x, d) =>
      let q (i : Nat) : W64 := d.words.getD i 0
      let n := bits (q 3) 0 32
      let up := bit (q 3) 32
      match remoteParts (q 2) with
      | none => s.record ctx d.id stMoveAddr
      | some (v, a) =>
        match (if v = 0 then some stMoveAddr else s.accessFails x.part 0 v a n (!up)) with
        | some st => s.record ctx d.id st
        | none =>
          if s.rangeHeld 0 v a n ∨ (s.fn x.fn).attached = false then s
          else
            let s := s.chargeRange 0 v a n (if x.net then 0 else (partOfFn x.fn).val) (if bit (q 3) 33 then 2 else 1)
            if up then
              let r := s.viewRead 0 v a n
              let s := { r.1 with hostMem := memWriteList zeroByte r.1.hostMem (q 1).toNat r.2.1 }
              s.record ctx d.id (if r.2.2 then stDataPoison else stOk) (w64 n) 0 0 0 r.2.2
            else
              let h := hostWords src n
              let s := s.viewWrite 0 v a h.1 false
              s.record ctx d.id (if h.2 then stOk else stHostDma) (w64 h.1.length))

end Sys2Proof.Machine
end

