-- ==== Sys2Proof/Machine/Admin.lean ====
section
/-! DEFINITION. Admin commands: contexts, regions, partitions, functions (R218, R219, R273, R322, R341-R348). -/

namespace Sys2Proof.Machine

/-- Whether the admin ring of a function is served: the MP handles it (R341). -/
def adminOpen (s : State) (f : FnId) : Bool := s.mpUp && (s.fn f).enabled && s.ringRuns f
/-- Whether an admin command of a function completes with ST_SAFE (R458). -/
def adminSafe (s : State) (f : FnId) : Bool := s.err.safe && s.mpUp && (s.fn f).enabled && (s.fn f).attached
/-- The words that a DMA read brought; a failed read is an error of the block (log entry 26). -/
def readWords (h : HostRead) (n : Nat) : Option (List W64) :=
  match h with
  | .words ws => if n ≤ ws.length then some ws else none
  | .failed => none

/-! ## Context blocks (R342, Table 12.11) -/

/-- A context block. -/
structure CtxBlock where
  timerUs : Nat
  count : Nat
  priority : Byte
  vector : Nat
  part : PartId
  net : Bool
  sqBase : W64
  cqBase : W64
  slot : W64
  sqLog2 : Nat
  cqLog2 : Nat
  kvAddr : W64
  soundTable : W64
  soundSize : W32
  firstSeq : W32
  deriving DecidableEq, Repr
/-- The fields of a block. -/
def ctxBlock (ws : List W64) : CtxBlock :=
  let q (i : Nat) : W64 := ws.getD i 0
  { timerUs := bits (q 0) 48 16, count := bits (q 0) 32 16, priority := BitVec.ofNat 8 (bits (q 0) 24 8), vector := bits (q 0) 16 8,
    part := Fin.ofNat 16 (bits (q 0) 12 4), net := bit (q 0) 8, sqBase := q 1, cqBase := q 2, slot := q 3, sqLog2 := bits (q 4) 8 5,
    cqLog2 := bits (q 4) 0 5, kvAddr := q 5, soundTable := q 6, soundSize := BitVec.ofNat 32 (bits (q 7) 32 32),
    firstSeq := (q 7).setWidth 32 }
/-- Whether R342 accepts a block on a function's admin ring. -/
def blockOk (f : FnId) (ws : List W64) : Bool :=
  let b := ctxBlock ws
  let q0 := ws.getD 0 0
  bits q0 9 3 == 0 && bits q0 0 8 == 1 && decide (b.timerUs ≤ 1000) && decide (1 ≤ b.count) && decide (b.count ≤ 256)
  && decide (b.vector < if f = 0 then 64 else 16) && bits b.sqBase 0 12 == 0 && bits b.cqBase 0 12 == 0 && bits b.slot 0 6 == 0
  && decide (6 ≤ b.sqLog2) && decide (b.sqLog2 ≤ 16) && decide (6 ≤ b.cqLog2) && decide (b.cqLog2 ≤ 16)
  && (if f = 0 then b.part == 0 || b.net else b.part == partOfFn f)
/-- A context bound to a block's rings. -/
def bindCtx (f : FnId) (b : CtxBlock) (now : Nat) (x : Ctx) : Ctx :=
  { x with
    fn := f, priority := b.priority, vector := b.vector, net := b.net, timerUs := b.timerUs, modCount := b.count, sqBase := b.sqBase,
    cqBase := b.cqBase, slot := b.slot, sqLog2 := b.sqLog2, cqLog2 := b.cqLog2, soundTable := b.soundTable, soundSize := b.soundSize,
    nextSeq := b.firstSeq, sqTail := 0, sqHead := 0, cqHead := 0, cqTail := 0, unsignalled := 0, firstUnsignalled := 0, interval := 1,
    nextPoll := now, st := .open_, errPending := false, errStatus := 0, errSeq := 0 }
/-- A new context. -/
def newCtx (n : CtxId) (f : FnId) (b : CtxBlock) (kv : Option KvCfg) (now : Nat) : Ctx :=
  bindCtx f b now {
    num := n, st := .open_, fn := f, part := b.part, priority := 0, vector := 0, net := false, timerUs := 0, modCount := 1, sqBase := 0,
    cqBase := 0, slot := 0, sqLog2 := 6, cqLog2 := 6, kv := kv, soundTable := 0, soundSize := 0, nextSeq := 0, lastFetched := b.firstSeq - 1,
    lastCompleted := b.firstSeq - 1, sqTail := 0, sqHead := 0, cqHead := 0, cqTail := 0, descs := [], recs := [], notices := [],
    unsignalled := 0, firstUnsignalled := 0, interval := 1, nextPoll := now, errStatus := 0, errSeq := 0, errPending := false,
    destroySeq := none, peerStreams := [] }

/-! ## Cache configuration (R273, Table 10.4) -/

/-- The fields of a configuration block. -/
def kvCfg (ws : List W64) : KvCfg :=
  let q (i : Nat) : W64 := ws.getD i 0
  { kfmt := bits (q 0) 61 3, vfmt := bits (q 0) 58 3, kfloor := bits (q 0) 55 3, vfloor := bits (q 0) 52 3, extent := bits (q 0) 45 7,
    kvHeads := bits (q 0) 37 8, layers := bits (q 0) 21 16, qPerKv := bits (q 0) 17 4, ropeBase := BitVec.ofNat 32 (bits (q 1) 32 32),
    ropeScale := (q 1).setWidth 32, ropePairs := bits (q 2) 56 8, waitTimeout := (q 2).setWidth 32,
    poolRegion := BitVec.ofNat 32 (bits (q 3) 32 32), tableRegion := (q 3).setWidth 32, spillRegion := BitVec.ofNat 32 (bits (q 4) 32 32),
    lowWater := bits (q 4) 16 16 }
/-- Whether a row format code is one of K8, K4, K2. -/
def isRowFmt (n : Nat) : Bool := n == 2 || n == 3 || n == 4
/-- Whether R273 accepts a block for a partition. -/
def kvOk (s : State) (p : PartId) (ws : List W64) : Bool :=
  let k := kvCfg ws
  let floor (n : Nat) : Bool := n == 0 || isRowFmt n
  let region (id : W32) : Option Region := s.regions.find? (fun r => r.id == id && r.part == p)
  bits (ws.getD 0 0) 0 8 == 1 && isRowFmt k.kfmt && isRowFmt k.vfmt && floor k.kfloor && floor k.vfloor && decide (1 ≤ k.extent)
  && decide (k.extent ≤ 64) && decide (1 ≤ k.kvHeads) && decide (1 ≤ k.layers) && decide (k.layers ≤ 4096) && decide (1 ≤ k.qPerKv)
  && decide (k.qPerKv ≤ 8) && decide (k.ropePairs ≤ 64)
  && ((f32v 0x3F800000).lt (f32v k.ropeBase) && !(f32v k.ropeBase).isInf)
  && (match f32v k.ropeScale with | .fin false m _ => m != 0 | _ => false)
  && (match region k.poolRegion with
      | some r => r.view == 0 && !r.readOnly && r.ptype == .state && r.base % 262144 == 0 && r.lines % 64 == 0
          && decide (frameRows k.kfmt k.vfmt + 4 ≤ r.lines / 64)
      | none => false)
  && (match region k.tableRegion with | some r => r.view == 1 && r.ptype == .state | none => false)
  && (k.spillRegion == 0xFFFFFFFF || (match region k.spillRegion with
      | some r => r.spillway && decide (frameRows k.kfmt k.vfmt ≤ r.slot4k)
      | none => false))

/-! ## Context commands (R341-R347) -/

/-- Whether a function may name an object of a partition (R322, R341). -/
def mayName (f : FnId) (p : PartId) : Bool := f == 0 || p == partOfFn f
/-- CTX_CREATE: the context takes a free number. -/
def execCtxCreate (fn : FnId) (seq : W32) (block kvCfg : HostRead) (s : State) : Out :=
  .next (
    if adminSafe s fn then adminDone s fn seq 0x40 stSafe 0
    else if adminOpen s fn = false then s
    else
      let done := adminDone s fn seq 0x40
      let free := (List.range 256).filter (fun n => !(s.ctxs.any (fun x => x.num.val == n)))
      match readWords block 32 with
      | none => done stCtxInvalid 0
      | some ws =>
        let b := ctxBlock ws
        if free.isEmpty then done stCtxFull 0
        else if blockOk fn ws = false then done stCtxInvalid 0
        else
          let kv : Option (Option KvCfg) :=
            if b.kvAddr = 0 then some none
            else match readWords kvCfg 8 with
              | some ks => if kvOk s b.part ks then some (some (Machine.kvCfg ks)) else none
              | none => none
          match kv with
          | none => done stKvConfig 0
          | some kv =>
            let n : CtxId := Fin.ofNat 256 (free.getD (Config.choice s.free % free.length) 0)
            let s := { s with ctxs := s.ctxs ++ [newCtx n fn b kv s.now], free := s.free + 1 }
            adminDone s fn seq 0x40 stOk (w64 n.val))
/-- The context that an admin command names, or the status it fails with. -/
def namedCtx (s : State) (f : FnId) (c : BitVec 8) : Except (BitVec 16) Ctx :=
  match s.ctx? (Fin.ofNat 256 c.toNat) with
  | none => .error stCtxInvalid
  | some x => if mayName f x.part then .ok x else .error stNotPermitted
/-- CTX_DESTROY: it completes once the context is freed. -/
def execCtxDestroy (fn : FnId) (seq : W32) (ctx : BitVec 8) (s : State) : Out :=
  .next (
    if adminSafe s fn then adminDone s fn seq 0x41 stSafe 0
    else if adminOpen s fn = false then s
    else match namedCtx s fn ctx with
      | .error st => adminDone s fn seq 0x41 st 0
      | .ok x =>
        if x.st = .closing then adminDone s fn seq 0x41 stCtxInvalid 0
        else closeCtx s x.num (some (fn, seq)))
/-- What ADOPT and RESET check before they bind a context to a block (R342, R343). -/
def rebindFails (s : State) (fn : FnId) (ctx : BitVec 8) (block : HostRead) : Except (BitVec 16) (Ctx × CtxBlock) :=
  match namedCtx s fn ctx, readWords block 32 with
  | .error st, _ => .error st
  | .ok _, none => .error stCtxInvalid
  | .ok x, some ws =>
    if x.st = .open_ ∨ x.st = .closing then .error stCtxBusy
    else if blockOk fn ws = false ∨ (ctxBlock ws).part ≠ x.part then .error stCtxInvalid
    else .ok (x, ctxBlock ws)
/-- CTX_ADOPT: the held records go first, with held = 1 and the phase starting at 1 (R347). -/
def execCtxAdopt (fn : FnId) (seq : W32) (ctx : BitVec 8) (block : HostRead) (s : State) : Out :=
  .next (
    if adminSafe s fn then adminDone s fn seq 0x42 stSafe 0
    else if adminOpen s fn = false then s
    else match rebindFails s fn ctx block with
      | .error st => adminDone s fn seq 0x42 st 0
      | .ok (x, b) =>
        if b.firstSeq ≠ x.lastFetched + 1 then adminDone s fn seq 0x42 stCtxInvalid 0
        else adminDone (s.modCtx x.num (fun y => bindCtx fn b s.now { y with recs := y.recs.map (fun r => { r with held := true }) })) fn seq 0x42 stOk 0)
/-- CTX_RESET: held records are discarded and queued work items cancelled without records (R347). -/
def execCtxReset (fn : FnId) (seq : W32) (ctx : BitVec 8) (block : HostRead) (s : State) : Out :=
  .next (
    if adminSafe s fn then adminDone s fn seq 0x43 stSafe 0
    else if adminOpen s fn = false then s
    else match rebindFails s fn ctx block with
      | .error st => adminDone s fn seq 0x43 st 0
      | .ok (x, b) =>
        let s := cancelSteps (cancelWhere s stCancelled false (fun i => i.context == x.num)) x.num stCancelled false
        let s := s.modCtx x.num (fun y => bindCtx fn b s.now { y with
          recs := [], descs := [], lastFetched := b.firstSeq - 1, lastCompleted := b.firstSeq - 1 })
        adminDone s fn seq 0x43 stOk 0)

/-! ## Regions (R218, R219) -/

/-- Whether n bytes from an offset of the far tier lie in devices in use. -/
def farFits (s : State) (a n : Nat) : Bool :=
  match s.farTarget a, s.farTarget (a + n - 1) with
  | some (p, _), some (q, _) => s.mem.farPair || p == q || s.farCap p == 2 ^ 40
  | _, _ => false
/-- The region that descriptor words describe, before it has an identifier. -/
def regionOf (ws : List W64) : Region :=
  let q (i : Nat) : W64 := ws.getD i 0
  { id := 0, view := bits (q 0) 60 4,
    ptype := (match bits (q 0) 58 2 with | 0 => .weight | 1 => .state | _ => .activation),
    readOnly := bits (q 0) 56 2 == 1, part := Fin.ofNat 16 (bits (q 0) 52 4), ctx := Fin.ofNat 256 (bits (q 0) 44 8),
    restore := (match bits (q 0) 42 2 with | 1 => .far | 2 => .host | _ => .none), spillway := bit (q 0) 41,
    slot4k := bits (q 0) 36 5, base := bits (q 1) 0 60, lines := bits (q 2) 32 32, firstCore := bits (q 2) 23 9, lastCore := bits (q 2) 14 9,
    source := q 3, recovering := false, fenced := false, lost := false, todo := [], restored := [] }
/-- Whether the fields of a descriptor are legal (Table 8.3). -/
def regionLegal (ws : List W64) : Bool :=
  let r := regionOf ws
  let q (i : Nat) : W64 := ws.getD i 0
  let restore := bits (q 0) 42 2
  decide (r.view ≤ 2) && bits (q 0) 58 2 != 3 && decide (bits (q 0) 56 2 ≤ 1) && restore != 3 && bits (q 0) 32 4 == 0
  && bits (q 2) 0 14 == 0 && bits (q 1) 60 4 == r.view && r.base % 4096 == 0 && decide (1 ≤ r.lines)
  && (if r.view = 0 then decide (r.firstCore ≤ r.lastCore) else r.firstCore == 0 && r.lastCore == 0)
  && (if r.spillway then r.view == 2 && r.ptype == .state && decide (1 ≤ r.slot4k) else r.slot4k == 0)
  && (restore == 0 || r.ptype == .weight) && ((restore == 0) == (r.source == 0)) && bits r.source 0 12 == 0
/-- Whether a region lies within its view, and its source within its own (R219). -/
def regionFits (s : State) (r : Region) : Bool :=
  let n := 4096 * r.lines
  let cores := (List.range (r.lastCore + 1 - r.firstCore)).map (fun i => r.firstCore + i)
  (match r.view with
    | 0 => cores.all (fun c => (s.part r.part).cores.contains c && decide (r.base + n ≤ s.privSize (Fin.ofNat 512 c)))
    | 1 => decide (r.base + n ≤ s.viewSize 0 1)
    | _ => farFits s r.base n)
  && (let m := if r.view = 0 then n * cores.length else n
      match r.restore with
      | .none => true
      | .far => (bits r.source 60 4 == 2 || bits r.source 60 4 == 0) && farFits s (bits r.source 0 60) m
      | .host => decide (r.source.toNat + m ≤ 2 ^ 64))
/-- Whether two regions share a byte. -/
def regionsMeet (a b : Region) : Bool :=
  a.view == b.view && decide (a.base < b.base + 4096 * b.lines) && decide (b.base < a.base + 4096 * a.lines)
  && (a.view != 0 || (decide (a.firstCore ≤ b.lastCore) && decide (b.firstCore ≤ a.lastCore)))
/-- REGION_CREATE. -/
def execRegionCreate (fn : FnId) (seq : W32) (desc : HostRead) (s : State) : Out :=
  .next (
    if adminSafe s fn then adminDone s fn seq 0x44 stSafe 0
    else if adminOpen s fn = false then s
    else
      let done := adminDone s fn seq 0x44
      match readWords desc 4 with
      | none => done stRegionRange 0
      | some ws =>
        let r := regionOf ws
        if mayName fn r.part = false then done stNotPermitted 0
        else if regionLegal ws = false ∨ regionFits s r = false then done stRegionRange 0
        else if s.regions.any (fun x => regionsMeet r x && !(r.readOnly && x.readOnly)) then done stRegionOverlap 0
        else if 4096 ≤ s.regions.length then done stRegionFull 0
        else
          let id := freshId s.free (s.regions.map (·.id))
          let s := { s with regions := s.regions ++ [{ r with id := id }], free := s.free + 1 }
          adminDone s fn seq 0x44 stOk (id.setWidth 64))
/-- REGION_DESTROY. -/
def execRegionDestroy (fn : FnId) (seq : W32) (region : W32) (s : State) : Out :=
  .next (
    if adminSafe s fn then adminDone s fn seq 0x45 stSafe 0
    else if adminOpen s fn = false then s
    else match s.regions.find? (fun r => r.id == region) with
      | none => adminDone s fn seq 0x45 stRegionRange 0
      | some r =>
        if mayName fn r.part = false then adminDone s fn seq 0x45 stNotPermitted 0
        else if ctxWorks s r.ctx then adminDone s fn seq 0x45 stCtxBusy 0
        else adminDone (freeRegion s r) fn seq 0x45 stOk 0)

/-! ## Partitions and functions -/

/-- Whether a partition has queued or running work items. -/
def partWorks (s : State) (p : PartId) : Bool :=
  s.sched.waiting.any (fun i => i.partition == p) || partBusy s p.val
/-- The cores that a 512-bit map names, without those fenced or in a fenced tower (R318, R455). -/
def bitmapCores (s : State) (ws : List W64) : List Nat :=
  (List.range 512).filter (fun c => bit (ws.getD (c / 64) 0) (c % 64) && !(s.core (Fin.ofNat 512 c)).fenced
    && !(s.fencedTowers.contains (c / 64)))
/-- PART_SET: the partition's cores leave the partitions they were in; its semaphores are 0 (R120). -/
def execPartSet (fn : FnId) (seq : W32) (part : BitVec 4) (cores : HostRead) (semFirst semCount : BitVec 16) (s : State) : Out :=
  .next (
    if adminSafe s fn then adminDone s fn seq 0x46 stSafe 0
    else if adminOpen s fn = false then s
    else if fn ≠ 0 then adminDone s fn seq 0x46 stNotPermitted 0
    else
      let p : PartId := Fin.ofNat 16 part.toNat
      match readWords cores 8 with
      | none => adminDone s fn seq 0x46 stHostDma 0
      | some ws =>
        if 4096 < semFirst.toNat + semCount.toNat then adminDone s fn seq 0x46 stDescInvalid 0
        else if partWorks s p then adminDone s fn seq 0x46 stCtxBusy 0
        else
          let mine := bitmapCores s ws
          let parts := (s.parts.map (fun (q : Part) => ({ q with cores := q.cores.filter (fun c => !(mine.contains c)) } : Part))).set p.val
            { cores := mine, semFirst := semFirst.toNat, semCount := semCount.toNat }
          adminDone (zeroSems { s with parts := parts } p) fn seq 0x46 stOk 0)

/-- An FLR of a function begins: host loss, and every context of its partition closes (R348). -/
def startFlr (s : State) (f : FnId) : State :=
  let k := s.fn f
  if k.enabled = false ∨ k.st = .init then s
  else
    let s := loseHost s f 5
    let s := s.modFn f (fun k => { k with flr := true, busy := false, pendingHello := false })
    let mine := s.ctxs.filter (fun x => x.part == partOfFn f)
    let s := mine.foldl (fun (s : State) (x : Ctx) => if x.st = .closing then s else closeCtx s x.num none) s
    settleFlr s f
/-- FLR. -/
def execFlr (fn : FnId) (s : State) : Out := .next (startFlr s fn)
/-- VF_ENABLE: VFs 1 to n are enabled and READY; 0 clears VF Enable, an FLR of every VF (R324, R348). -/
def execVfEnable (numVfs : Fin 16) (s : State) : Out :=
  .next (
    if s.start.phase ≠ .service then s
    else if numVfs = 0 then
      (List.range 15).foldl (fun s i =>
        let f : FnId := Fin.ofNat 16 (i + 1)
        (startFlr s f).modFn f (fun k => { k with enabled := false })) s
    else
      (List.range numVfs.val).foldl (fun s i =>
        let f : FnId := Fin.ofNat 16 (i + 1)
        if (s.fn f).enabled then s
        else s.modFn f (fun k => { k with enabled := true, st := if s.err.safe then .safe else .ready, before := .ready })) s)

end Sys2Proof.Machine
end

