-- ==== Sys2Proof/Machine/BankUnit.lean ====
section
/-! DEFINITION. Near-bank launches, segments and the events that meet a bank program (R239-R249, R254-R266). -/

namespace Sys2Proof.Machine

/-! ## Class limits (Table 9.7) -/

/-- Class A units that a channel may hold, by its band and throttle step. -/
def chanLimit (x : Chan) : Nat :=
  match x.band with
  | 0 => 8
  | 1 => 6
  | 2 => [4, 3, 2, 1].getD x.step 1
  | _ => 0
/-- The limit of a channel under NBU_CFG.classa_chan. -/
def classAChan (s : State) (c : CoreId) (ch : ChanId) : Nat := Nat.min (chanLimit (s.chan c ch)) s.mem.classaChan.toNat
/-- The limit of a slice: the sum of its channels' limits, capped at 24 and at NBU_CFG.classa_slice. -/
def classASlice (s : State) (c : CoreId) : Nat :=
  Nat.min (Nat.min 24 ((allChans.map (fun ch => chanLimit (s.chan c ch))).sum)) s.mem.classaSlice.toNat
/-- Active class A units of a channel. -/
def activeA (s : State) (c : CoreId) (ch : ChanId) : List UnitId :=
  (chanUnits ch).filter (fun u => (s.unit c u).active && !(s.unit c u).classB)
/-- The units of a mask. -/
def maskUnits (mask : W64) : List UnitId := allUnits.filter (fun u => mask.getLsbD u.val)
/-- Units of a mask on a channel. -/
def maskOn (mask : W64) (ch : ChanId) : Nat := ((chanUnits ch).filter (fun u => mask.getLsbD u.val)).length
/-- Whether a class A launch fits beside the active units (R258). -/
def classAFits (s : State) (c : CoreId) (mask : W64) : Bool :=
  allChans.all (fun ch => maskOn mask ch == 0 || decide ((activeA s c ch).length + maskOn mask ch ≤ classAChan s c ch))
  && decide (((allChans.map (fun ch => (activeA s c ch).length)).sum) + (maskUnits mask).length ≤ classASlice s c)
/-- Whether a class A mask exceeds the limits of R258 in band 0. -/
def classATooMany (s : State) (mask : W64) : Bool :=
  allChans.any (fun ch => decide (Nat.min 8 s.mem.classaChan.toNat < maskOn mask ch))
  || decide (Nat.min 24 s.mem.classaSlice.toNat < (maskUnits mask).length)
/-- The class B budget of a layer (R259, Table 9.7). -/
def classBBudget (s : State) (c : CoreId) (l : LayerId) : Nat :=
  let x := s.chan c (layerChan l)
  let b := s.mem.layerBudget.toNat
  match x.band with
  | 0 => b
  | 1 => b * 3 / 4
  | 2 => b * ([4, 3, 2, 1].getD x.step 1) / 8
  | _ => 0

/-! ## Launches (R244-R247) -/

/-- The state with a launch of a slice changed. -/
def modLaunch (s : State) (c : CoreId) (id : Nat) (f : Launch → Launch) : State :=
  s.modSlice c (fun k => { k with launches := updWhere (fun l => l.id == id) f k.launches })
/-- A byte range of an argument block as a number. -/
def argField (bs : List Byte) (at_ n : Nat) : Nat := leNat ((bs.drop at_).take n)
/-- The parts of an argument block that the controller reads: offset and length. -/
def argParts (q0 : Nat) : List (Nat × Nat) :=
  (if q0.testBit 45 then [(128, 256)] else [])
  ++ ((List.range 8).filter (fun i => q0.testBit (48 + i))).flatMap (fun i => [(384 + 8 * i, 8), (448 + 256 * i, 256)])
/-- What reading a launch gave: the state, poison among what was read, and either a failure or the program, block and windows. -/
structure LaunchRead where
  s : State
  poison : Bool
  prog : List W32
  args : List Byte
  windows : List Window
  fails : Option (BitVec 16)
  deriving DecidableEq, Repr
/-- Whether bytes of the target slice's private view may be read by a partition. -/
def nbReadable (s : State) (t : CoreId) (part : PartId) (a n : Nat) : Bool := (s.accessFails part t 0 a n false).isNone
/-- Reads parts of the argument block into place. -/
def readParts (s : State) (t : CoreId) (base : Nat) (bs : List Byte) : List (Nat × Nat) → State × List Byte × Bool
  | [] => (s, bs, false)
  | (o, n) :: rest =>
    let r := s.viewRead t 0 (base + o) n
    let x := readParts r.1 t base (bs.take o ++ r.2.1 ++ bs.drop (o + n)) rest
    (x.1, x.2.1, r.2.2 || x.2.2)
/-- The regions that cover a window row in a unit's pair for a partition, none where a line is not covered. -/
def rowRegions (s : State) (t : CoreId) (part : PartId) (write : Bool) (u : UnitId) (r : Nat) : Option (List Region) :=
  [0, 32, 2048, 2080].mapM (fun o =>
    match s.blockView t (localCoord u (4096 * r + o)) with
    | some (0, a) => s.regions.find? (fun x => x.part == part && x.holds t 0 a 32 && !x.fenced && !(write && x.readOnly))
    | _ => none)
/-- A window of the argument block: none when a reserved bit is set, its rows are out of order, a row is not covered, or it spans
protection types. -/
def readWindow (s : State) (t : CoreId) (part : PartId) (mask : W64) (q : Nat) : Option Window :=
  let lo := q % 4096
  let hi := q / 4096 % 4096
  let write := q.testBit 63
  if q / 2 ^ 24 % 2 ^ 39 ≠ 0 ∨ hi < lo then none
  else
    let rows := (List.range (hi + 1 - lo)).map (fun i => lo + i)
    match (maskUnits mask).mapM (fun u => rows.mapM (fun r => rowRegions s t part write u r)) with
    | none => none
    | some rs =>
      let types := (rs.flatten.flatten).map (fun (r : Region) => r.ptype)
      match types with
      | [] => some { first := lo, last := hi, write := write, ptype := .state }
      | p :: rest => if rest.all (· == p) then some { first := lo, last := hi, write := write, ptype := p } else none
/-- The checks of R245 over a launch, with the reads of Table 9.3, step 3. -/
def readLaunch (s : State) (t : CoreId) (l : LaunchP) : LaunchRead :=
  let bad (s : State) (st : BitVec 16) : LaunchRead :=
    { s := s, poison := false, prog := [], args := [], windows := [], fails := some st }
  match remoteParts l.prog, remoteParts l.arg with
  | some (0, pa), some (0, aa) =>
    if (l.classB && l.fixed) || (l.fixed && !s.mem.fixedEn) || (!l.classB && classATooMany s l.mask) then bad s stNbClass
    else if nbReadable s t l.part aa 128 = false then bad s stNbArgs
    else
      let h := readParts s t aa (List.replicate 2496 0) [(0, 128)]
      let q (n : Nat) : Nat := argField h.2.1 (8 * n) 8
      let len := q 0 / 2 ^ 56 + 1
      let wins := (List.range (q 0 / 2 ^ 46 % 4 + 1)).map (fun i => q (1 + i))
      if q 0 / 2 ^ 8 % 2 ^ 36 ≠ 0 ∨ q 0 % 256 ≠ 1 ∨ q 6 / 256 ≠ 0 ∨ q 7 ≠ 0
        ∨ (argParts (q 0)).any (fun p => !(nbReadable s t l.part (aa + p.1) p.2)) ∨ nbReadable s t l.part pa (4 * len) = false then
        bad h.1 stNbArgs
      else match wins.mapM (readWindow s t l.part l.mask) with
        | none => bad h.1 stNbArgs
        | some ws =>
          let a := readParts h.1 t aa h.2.1 (argParts (q 0))
          let p := a.1.viewRead t 0 pa (4 * len)
          let cls := if l.background then 2 else 1
          let s := ((p.1).chargeRange t 0 aa 128 l.part.val cls).chargeRange t 0 pa (4 * len) l.part.val cls
          { s := s, poison := h.2.2 || a.2.2 || p.2.2,
            prog := (List.range len).map (fun i => BitVec.ofNat 32 (argField p.2.1 (4 * i) 4)),
            args := a.2.1, windows := ws, fails := none }
  | _, _ => bad s stNbArgs
/-- A unit starts a launch's program (R240, Table 9.3, steps 5 and 6). -/
def startUnit (s : State) (c : CoreId) (u : UnitId) (l : Launch) : State :=
  let q0 := argField l.args 0 8
  let word (at_ : Nat) : W32 := BitVec.ofNat 32 (argField l.args at_ 4)
  let x (i : Nat) : W32 :=
    if i = 0 then 0 else if i = 13 ∧ q0.testBit 45 then word (128 + 4 * u.val) else word (64 + 4 * i)
  let slots := (List.range 8).filter (fun i => q0.testBit (48 + i))
  let nz (m : List (Nat × Byte)) : List (Nat × Byte) := m.filter (fun e => e.2 != 0)
  s.modUnit c u (fun y => { BankUnit.reset with
    st := (if l.req.fixed then .waiting else .running), prog := l.prog, x := (List.range 16).map x,
    resMant := nz (slots.flatMap (fun i => (List.range 256).map (fun j => (256 * i + j, l.args.getD (448 + 256 * i + j) 0)))),
    resExp := nz (slots.flatMap (fun i => (List.range 8).map (fun j => (8 * i + j, l.args.getD (384 + 8 * i + j) 0)))),
    ropeBase := word 44, ropeScale := word 40, ropePairs := argField l.args 48 1, sr := q0.testBit 44, windows := l.windows,
    classB := l.req.classB, fixed := l.req.fixed, background := l.req.background, part := l.req.part, ctx := l.req.ctx,
    workItem := l.req.workItem, launch := l.id, fencedU := y.fencedU, faults := y.faults, checkErrs := y.checkErrs,
    wrote := y.wrote })
/-- An admitted launch reaches a unit: a fenced unit or one on a lost channel does not run, a running one holds it pending. -/
def sendUnit (s : State) (c : CoreId) (l : Launch) (u : UnitId) : State :=
  let x := s.unit c u
  if x.active then s.modUnit c u (fun x => { x with pendingLaunch := some l.id })
  else if x.fencedU then (s.modUnit c u (fun x => { x with pendingLaunch := some l.id })).dropPending c u .fenced 7
  else if (s.chan c (localCoord u 0).ch).lost then
    (s.modUnit c u (fun x => { x with pendingLaunch := some l.id })).dropPending c u .failed 9
  else startUnit s c u l
/-- A core's saved work item as a core of its own, for what completes while it is pre-empted. -/
def Saved.asCore (v : Saved) : Core := { Core.reset with bufs := v.bufs, inflight := v.inflight, clash := v.clash }
/-- An instruction of NB or COL completes, of the running work item or of the pre-empted one (R133). -/
def completeOwn (s : State) (c : CoreId) (ord : Nat) (q : Queue) (written : List Rng) (poisonIn : Bool) : State :=
  let k := s.core c
  match k.inflight.find? (fun e => e.ord == ord && e.queue == q) with
  | some e => settle c (complete s c e written poisonIn true)
  | none => match k.saved with
    | some v =>
      let w := written.foldl (fun (k : Core) r => k.markWritten ord r poisonIn true) (v.asCore.retire ord)
      s.setCore c { k with saved := some { v with bufs := w.bufs, inflight := w.inflight } }
    | none => s
/-- An instruction in flight fails: the work item that issued it faults (R128). -/
def faultOwn (s : State) (c : CoreId) (ord : Nat) (q : Queue) (st : BitVec 16) : State :=
  let k := s.core c
  match k.inflight.find? (fun e => e.ord == ord && e.queue == q) with
  | some e => s.setCore c ((k.retire ord).fault st e.pc)
  | none => match k.saved with
    | some v =>
      (match v.inflight.find? (fun e => e.ord == ord && e.queue == q) with
        | some e =>
          let w := match v.wait with | .faulted a b => Waiting.faulted a b | _ => .faulted st e.pc
          s.setCore c { k with saved := some { v with
            inflight := v.inflight.filter (fun x => x.ord != ord), wait := w, queues := [], stalled := none } }
        | none => s)
    | none => s
/-- A launch met poison: the work item that issued it ends with ST_DATA_POISON at best (R201). -/
def poisonOwn (s : State) (c : CoreId) (ord : Nat) : State :=
  s.modCore c (fun x =>
    if x.inflight.any (fun e => e.ord == ord && e.queue == .nb) then { x with nbPoison := true }
    else match x.saved with
      | some v => { x with saved := some { v with nbPoison := true } }
      | none => x)
/-- LAUNCH_ADMIT: the oldest launch that waits in a slice, checked by R245 and admitted by R258. -/
def execLaunchAdmit (c : CoreId) (s : State) : Out :=
  .next (
    match (s.slice c).launches.find? (fun l => !l.admitted) with
    | none => s
    | some l =>
      let us := maskUnits l.req.mask
      if (s.slice c).selfRefresh ∨ (s.tower (towerOf c)).fastStop ∨ (s.pwr.nearBank.getD (towerOf c).val .on) ≠ .on
        ∨ us.any (fun u => (s.unit c u).active && (s.unit c u).pendingLaunch.isSome) then s
      else if (match remoteParts l.req.arg, remoteParts l.req.prog with
          | some (0, a), some (0, p) => s.rangeHeld c 0 a 2496 || s.rangeHeld c 0 p 1024
          | _, _ => false) then s
      else
        let r := readLaunch s c l.req
        match r.fails with
        | some st =>
          faultOwn (r.s.modSlice c (fun k => { k with launches := k.launches.filter (fun x => x.id != l.id) })) l.req.core l.ord .nb st
        | none =>
          if l.req.classB = false ∧ classAFits s c l.req.mask = false then s
          else
            let l' : Launch := { l with admitted := true, prog := r.prog, args := r.args, windows := r.windows }
            let s := modLaunch r.s c l.id (fun _ => l')
            let s := if r.poison then poisonOwn s l.req.core l.ord else s
            us.foldl (fun s u => sendUnit s c l' u) s)
/-- A pending launch starts once its unit has ended its program (R247). -/
def startPending (s : State) (c : CoreId) (u : UnitId) : State :=
  match (s.unit c u).pendingLaunch with
  | none => s
  | some id =>
    if (s.unit c u).active then s
    else match (s.slice c).launches.find? (fun l => l.id == id) with
      | some l => if (s.unit c u).fencedU then s.dropPending c u .fenced 7 else startUnit s c u l
      | none => s

/-! ## Segments (R256, R257, R201) -/

/-- A segment ends: it is charged, its records go, the controller reads the first failing block, owed refresh may issue. -/
def endSegment (s : State) (c : CoreId) (u : UnitId) : State :=
  let x := s.unit c u
  if x.segment.isNone then s
  else
    let s := (chargeSegment s c u).segRecords c u
    let s := s.modUnit c u (fun y => { y with segment := none, segC := (0, none), segU := (0, none), segP := (0, none) })
    let s := match x.segU.2 with
      | some a => if x.segU.1 = 0 then s else (s.bankRead c a).1
      | none => s
    settleRefresh s c (localCoord u 0).ch
/-- A unit's program ends: its segment first, its status word, then a launch that waits for the unit. -/
def finishUnit (s : State) (c : CoreId) (u : UnitId) (st : UnitSt) (code : Nat) : State :=
  startPending ((endSegment s c u).endUnit c u st code) c u
/-- The segment limit of native mode in ns, by the channel's band. -/
def segLimit (x : Chan) : Nat := if x.band < 2 then 2000 else 500
/-- Whether a unit begins no further step: its segment has run for the limit less 96 ns, or its fixed window is over. -/
def segOver (s : State) (c : CoreId) (u : UnitId) : Bool :=
  let x := s.unit c u
  match x.segment with
  | some t => if x.fixed then decide (t + 768 ≤ s.now) else decide (t + segLimit (s.chan c (localCoord u 0).ch) ≤ s.now + 96)
  | none => false
/-- Whether a partition has reached its ceiling in the current window (R261). -/
def ceilingReached (s : State) (c : CoreId) (p : PartId) : Bool :=
  let w := s.mem.weir.getD p.val { ceiling := 0, share := 0, protFloor := 0, bgShare := 0 }
  let cap := (allChans.map (fun ch => chanPs s c ch true)).sum
  let used := (((s.slice c).weirUse.filter (fun x => x.1 == p.val)).map (fun x => x.2.2)).sum
  decide (w.ceiling.toNat * cap ≤ 64 * used)
/-- Whether a class A unit waits for its turn: the limit of its channel is below the active count (R258). -/
def turnWaits (s : State) (c : CoreId) (u : UnitId) : Bool :=
  let ch := (localCoord u 0).ch
  let a := activeA s c ch
  let lim := classAChan s c ch
  let holding := a.filter (fun v => (s.unit c v).segment.isSome)
  decide (lim ≤ holding.length)
  || (decide (lim < a.length) && a.any (fun v => decide (v.val < u.val) && (s.unit c v).st == .waiting))
/-- SEGMENT_GRANT. -/
def execSegmentGrant (c : CoreId) (u : UnitId) (s : State) : Out :=
  .next (
    let x := s.unit c u
    let ch := (localCoord u 0).ch
    if x.st ≠ .waiting ∨ s.chanHolds c ch ∨ (s.tower (towerOf c)).fastStop then s
    else if (if x.fixed then decide (0 < (s.chan c ch).owed) else decide (s.mem.refreshDefer.toNat ≤ (s.chan c ch).owed)) then s
    else if x.classB && ((s.slice c).layer (Fin.ofNat 8 (u.val / 8))).bSuspended then s
    else if (!x.classB && turnWaits s c u) || ceilingReached s c x.part then s
    else s.modUnit c u (fun x => { x with st := .running, segment := some s.now, chargedAt := s.now, segments := x.segments + 1 }))
/-- SEGMENT_LIMIT: the boundary is forced; the interrupted micro-operation goes on under a new grant. -/
def execSegmentLimit (c : CoreId) (u : UnitId) (s : State) : Out :=
  .next (
    let x := s.unit c u
    if x.st = .running ∧ x.fixed = false ∧ segOver s c u then
      (endSegment s c u).modUnit c u (fun y => { y with st := .waiting, forced := y.forced + 1 })
    else s)
/-- NB_REFRESH_SUSPEND: the owed count reached 8 behind running segments; each stops, the commands issue, each goes on. -/
def execNbRefreshSuspend (c : CoreId) (ch : ChanId) (s : State) : Out :=
  .next (
    let us := (chanUnits ch).filter (fun u => let x := s.unit c u; x.segment.isSome && !x.fixed && x.st == .running)
    if (s.chan c ch).owed < 8 ∨ us.isEmpty then s
    else
      let s := us.foldl (fun s u => s.modUnit c u (fun x => { x with refreshSusp := true })) s
      let s := (issueOwed s c ch).modChan c ch (fun x => { x with suspends := x.suspends + us.length })
      let due : Bool := match (s.chan c ch).lastSuspendLog with | some t => decide (t + 1000000000 ≤ s.now) | none => true
      if due then
        let n := (s.chan c ch).suspends
        (s.modChan c ch (fun x => { x with suspends := 0, lastSuspendLog := some s.now })).log nbuRefreshSuspend (srcUnit c) (locChan c ch)
          0 none [w64 ch.val, w64 n]
      else s)
/-- CLASSB_METER_LIMIT: class B units of the layer stop until the next window. -/
def execClassbMeterLimit (c : CoreId) (l : LayerId) (s : State) : Out :=
  .next (
    if ((s.slice c).layer l).meter < classBBudget s c l then s
    else
      let s := s.modLayer c l (fun y => { y with bSuspended := true })
      (List.range 8).foldl (fun s i =>
        let u : UnitId := Fin.ofNat 64 (8 * l.val + i)
        if (s.unit c u).classB ∧ (s.unit c u).st = .running then
          (endSegment s c u).modUnit c u (fun x => { x with st := .waiting })
        else s) s)
/-- FIXED_WINDOW_CLOSE: the window of 768 ns closes before END. -/
def execFixedWindowClose (c : CoreId) (u : UnitId) (s : State) : Out :=
  .next (
    let x := s.unit c u
    if x.fixed = false ∨ x.st ≠ .running ∨ segOver s c u = false then s
    else
      let fresh := (s.slice c).launches.any (fun l => l.id == x.launch && !l.timingLogged)
      let s : State := if fresh = false then s else
        (modLaunch s c x.launch (fun (l : Launch) => { l with timingLogged := true })).log nbuTiming (srcUnit c) (locUnit c u) 0 (some (x.ctx, x.part))
          [w64 x.pc, x.workItem.setWidth 64]
      finishUnit s c u .failed 4)
/-- NB_UNIT_FAULT: a check of R265 fails; a second fault within 1 s fences the unit. -/
def execNbUnitFault (c : CoreId) (u : UnitId) (syn : W32) (s : State) : Out :=
  .next (
    let x := s.unit c u
    if x.active = false then s
    else
      let recent := x.faults.filter (fun t => decide (s.now ≤ t + 1000000000))
      let s := s.modUnit c u (fun y => { y with faults := s.now :: recent })
      let s := s.log nbuFault (srcUnit c) (locUnit c u) 0 (some (x.ctx, x.part)) [syn.setWidth 64, w64 x.pc, x.workItem.setWidth 64]
      let s := (endSegment s c u).endUnit c u .failed 6
      startPending (if recent.isEmpty then s else s.fenceUnit c u 0) c u)
/-- A stop of a slice's programs by a fast stop or SAFE: they end with ST_NB_ABORTED (Table 9.9). -/
def abortUnits (s : State) (c : CoreId) : State :=
  (s.slice c).units.foldl (fun (s : State) x =>
    let u : UnitId := Fin.ofNat 64 x.1
    if (s.unit c u).active then ((endSegment s c u).endUnit c u .failed 8).dropPending c u .failed 8 else s) s

/-! ## Status words (R246, R248) -/

/-- NB_STATUS_POLL: the controller reads the live words of running units. -/
def execNbStatusPoll (c : CoreId) (s : State) : Out :=
  .next (s.modSlice c (fun k => { k with
    liveWords := k.units.foldl (fun m x => if x.2.active then smSet m x.1 (statusWord x.2) else m) k.liveWords }))
/-- NB_LAUNCH_COMPLETE: the oldest launch of a slice whose every unit has ended; its status words go to st_buf. -/
def execNbLaunchComplete (c : CoreId) (s : State) : Out :=
  .next (
    match (s.slice c).launches.find? (fun l => l.admitted && (maskUnits l.req.mask).all (fun u => (smGet l.final u.val).isSome)) with
    | none => s
    | some l =>
      let k := l.req.core
      let s := s.modSlice c (fun x => { x with launches := x.launches.filter (fun y => y.id != l.id) })
      let s := l.final.foldl (fun (s : State) w => s.csWrite k (l.req.st.addr + 8 * w.1) (natLe 8 w.2.toNat)) s
      let bad := l.final.any (fun w => bits w.2 8 6 != 0)
      let s := if bad then poisonOwn s k l.ord else s
      completeOwn s k l.ord .nb [l.req.st] false)

end Sys2Proof.Machine
end

