-- ==== Sys2Proof/Machine/BankOps.lean ====
section
/-! DEFINITION. Bank-program micro-operations (R250-R254, R201). Each command is the dispatch of one micro-operation by a running
unit; the stream runs in program order, as R254 makes it appear. -/

namespace Sys2Proof.Machine

/-! ## Registers, scratch, blocks -/

/-- A micro-operation under way: the state, the unit's own state, and the failure code, 0 for none. -/
structure URun where
  s : State
  x : BankUnit
  code : Nat
  deriving DecidableEq, Repr

/-- A scalar register; x0 reads 0. -/
def BankUnit.r (x : BankUnit) (i : BitVec 4) : W32 := if i = 0 then 0 else x.x.getD i.toNat 0
/-- Whether a register holds a value computed from poisoned input. -/
def BankUnit.rBad (x : BankUnit) (i : BitVec 4) : Bool := i != 0 && x.taintX.getLsbD i.toNat
/-- A scalar register written; x0 ignores writes. -/
def BankUnit.setR (x : BankUnit) (i : BitVec 4) (v : W32) (bad : Bool) : BankUnit :=
  if i = 0 then x
  else
    let m : BitVec 16 := BitVec.ofNat 16 (2 ^ i.toNat)
    { x with x := x.x.set i.toNat v, taintX := if bad then x.taintX ||| m else x.taintX &&& ~~~m }
/-- A scratch word. -/
def BankUnit.w (x : BankUnit) (i : Nat) : W32 := (smGet x.scratch i).getD 0
/-- Whether a scratch word holds a value computed from poisoned input. -/
def BankUnit.wBad (x : BankUnit) (i : Nat) : Bool := x.taintS.contains i
/-- A scratch word written. -/
def BankUnit.put (x : BankUnit) (i : Nat) (v : W32) (bad : Bool) : BankUnit :=
  { x with scratch := smPut 0 x.scratch i v, taintS := if bad then i :: x.taintS.filter (· != i) else x.taintS.filter (· != i) }
/-- Consecutive scratch words written. -/
def BankUnit.putAll (x : BankUnit) (at_ : Nat) (vs : List (W32 × Bool)) : BankUnit :=
  (vs.zipIdx).foldl (fun x v => x.put (at_ + v.2) v.1.1 v.1.2) x
/-- Whether a scratch range reaches beyond word 8,191. -/
def scrOver (at_ n : Nat) : Bool := decide (0 < n) && decide (8192 < at_ + n)
/-- The first failure stands. -/
def URun.fail (r : URun) (code : Nat) : URun := if r.code = 0 then { r with code := code } else r
/-- Fails with a code when a condition holds. -/
def URun.check (r : URun) (p : Bool) (code : Nat) : URun := if p then r.fail code else r
/-- The window that holds a local row, for a read or a write. -/
def BankUnit.window (x : BankUnit) (row : Nat) (write : Bool) : Option Window :=
  x.windows.find? (fun w => decide (w.first ≤ row) && decide (row ≤ w.last) && (w.write || !write))
/-- Meters a block that a unit transfers (R259): 1 for the block, 16 for the activation of a row; class B activations owe refresh. -/
def meterBlock (c : CoreId) (u : UnitId) (classB : Bool) (a : Coord) (s : State) : State :=
  let act := smGet (s.chan c a.ch).openRows (bankNo a) != some a.row.val
  let s := s.modLayer c (Fin.ofNat 8 (u.val / 8)) (fun l => { l with meter := l.meter + (if act then 17 else 1) })
  let s := s.modChan c a.ch (fun x => x.openRow a s.now)
  if act && classB then
    s.modChan c a.ch (fun x =>
      let n := s.mem.actsPerRef.toNat * 256
      if n ≤ x.acts + 1 then { x with acts := x.acts + 1 - n, owed := Nat.min 8 (x.owed + 1) } else { x with acts := x.acts + 1 })
  else s
/-- Where a unit finds a local block: within a window, in its own pair; else the failure code. -/
def findBlock (c : CoreId) (u : UnitId) (r : URun) (t : Nat) (write : Bool) : Nat × Coord × PType :=
  let a := localCoord u t
  if 2 ^ 24 ≤ t then (1, a, .state)
  else match r.x.window (t / 4096) write with
    | none => (1, a, .state)
    | some w =>
      let p := (r.s.slice c).place a
      if unitOf p = u then (0, p, w.ptype) else (5, p, w.ptype)
/-- A count of a segment with its first block. -/
def bumpSeg (p : Nat × Option Coord) (a : Coord) : Nat × Option Coord := (p.1 + 1, match p.2 with | some x => some x | none => some a)
/-- A unit reads a block of its pair: it corrects in full-code windows and writes nothing back (R201). -/
def blockRead (c : CoreId) (u : UnitId) (r : URun) (t : Nat) : URun × List Byte × Bool :=
  let f := findBlock c u r t false
  if r.code ≠ 0 then (r, [], false)
  else if f.1 ≠ 0 then (r.fail f.1, [], false)
  else
    let d := r.s.blkData c f.2.1
    let k := r.s.blkCheck c f.2.1
    let s := meterBlock c u r.x.classB f.2.1 r.s
    let a := localCoord u t
    let bad (x : BankUnit) : BankUnit := { x with uncorr := x.uncorr + 1, segU := bumpSeg x.segU a }
    let bytes (d : BlockData) : List Byte := natLe 32 d.toNat
    match f.2.2 with
    | .activation =>
      if flagPoisoned k || failingRows d k != 0 then ({ r with s := s, x := bad r.x }, bytes d, true)
      else ({ r with s := s }, bytes d, false)
    | _ => match decodeFull d k with
      | .clean => ({ r with s := s }, bytes d, false)
      | .poisoned => ({ r with s := s, x := bad r.x }, bytes d, true)
      | .uncorrectable => ({ r with s := s, x := bad r.x }, bytes d, true)
      | m => ({ r with s := s, x := { r.x with corrections := r.x.corrections + 1, segC := bumpSeg r.x.segC a } },
              bytes (mended d m), false)
/-- Reads n bytes from a local address: the bytes, and which of the blocks are bad. -/
def bytesRead (c : CoreId) (u : UnitId) (r : URun) (t n : Nat) : URun × List Byte × List Bool :=
  let z := (List.range ((n + 31) / 32)).foldl (fun (acc : URun × List Byte × List Bool) i =>
    let b := blockRead c u acc.1 (t + 32 * i)
    (b.1, acc.2.1 ++ b.2.1, acc.2.2 ++ [b.2.2])) (r, [], [])
  (z.1, z.2.1.take n, z.2.2)
/-- A unit writes a whole block with a fresh check word, poisoned when it was computed from bad input (R201). -/
def blockWrite (c : CoreId) (u : UnitId) (r : URun) (t : Nat) (bs : List Byte) (bad : Bool) : URun :=
  let f := findBlock c u r t true
  if r.code ≠ 0 then r
  else if f.1 ≠ 0 then r.fail f.1
  else
    let d : BlockData := BitVec.ofNat 256 (leNat bs)
    let k := if f.2.2 = .activation then actWord d bad else if bad then poisonWord d else checkWord d
    let a := localCoord u t
    let s := ((meterBlock c u r.x.classB f.2.1 r.s).pageWritten c a).setBlk c f.2.1 d k
    let x := { r.x with wrote := blkIndex c a :: r.x.wrote.filter (· != blkIndex c a) }
    { r with s := s, x := if bad then { x with poisonedW := x.poisonedW + 1, segP := bumpSeg x.segP a } else x }
/-- Writes bytes in whole blocks from a local address. -/
def bytesWrite (c : CoreId) (u : UnitId) (r : URun) (t : Nat) (bs : List Byte) (bad : Nat → Bool) : URun :=
  (List.range (bs.length / 32)).foldl (fun r i => blockWrite c u r (t + 32 * i) ((bs.drop (32 * i)).take 32) (bad i)) r

/-! ## Dispatch of a micro-operation -/

/-- The pc after a micro-operation: the ends of loop bodies first. -/
def nextPc : Nat → Nat → List (Nat × Nat × Nat) → Nat × List (Nat × Nat × Nat)
  | 0, pc, l => (pc, l)
  | _, pc, [] => (pc, [])
  | n + 1, pc, (a, b, k) :: rest =>
    if pc ≤ b then (pc, (a, b, k) :: rest)
    else if 1 < k then (a, (a, b, k - 1) :: rest)
    else nextPc n pc rest
/-- The unit at a next pc. -/
def BankUnit.goto (x : BankUnit) (pc : Nat) : BankUnit :=
  let n := nextPc 3 pc x.loops
  { x with pc := n.1, loops := n.2 }
/-- The dispatch of a micro-operation by a running unit: illegal forms end it with ST_NB_ILLEGAL; a stream micro-operation
without a segment waits for a grant, unless its count is 0 (R250, R253, R256, R262). -/
def microOp (c : CoreId) (u : UnitId) (s : State) (fixedOk : Bool) (illegal : BankUnit → Bool) (stream : BankUnit → Bool)
    (body : URun → URun) : State :=
  let x := s.unit c u
  if x.st ≠ .running ∨ segOver s c u then s
  else if x.prog.length ≤ x.pc ∨ illegal x ∨ (x.fixed ∧ fixedOk = false) then finishUnit s c u .failed 2
  else if stream x && x.segment.isNone then s.modUnit c u (fun y => { y with st := .waiting })
  else
    let r := body { s := s, x := x, code := 0 }
    let s := (r.s).modUnit c u (fun _ => r.x)
    if r.code = 0 then s else finishUnit s c u .failed r.code
/-- A micro-operation of the control or scratch engine: no bank access. -/
def noStream : BankUnit → Bool := fun _ => false
/-- A body that goes on to the next micro-operation unless it failed. -/
def andNext (f : URun → URun) (r : URun) : URun :=
  let r := f r
  if r.code = 0 then { r with x := r.x.goto (r.x.pc + 1) } else r

/-! ## Control (R250) -/

/-- END. -/
def execNbEnd (c : CoreId) (u : UnitId) (f : MicroF) (s : State) : Out :=
  .next (
    let x := s.unit c u
    if x.st ≠ .running ∨ segOver s c u then s
    else if x.prog.length ≤ x.pc ∨ f.a ≠ 0 ∨ f.b ≠ 0 ∨ f.c ≠ 0 ∨ f.d ≠ 0 ∨ f.m ≠ 0 then finishUnit s c u .failed 2
    else finishUnit s c u .ended 0)
/-- SMARK: the mark is written and the segment ends. -/
def execSmark (c : CoreId) (u : UnitId) (f : MicroF) (s : State) : Out :=
  .next (
    let x := s.unit c u
    let bad : Bool := f.a != 0 || f.b != 0 || f.c != 0 || f.d != 0 || decide (255 < f.m.toNat)
    let s' := microOp c u s false (fun _ => bad) noStream (andNext (fun r => { r with x := { r.x with mark := f.m.setWidth 8 } }))
    if x.st = .running ∧ segOver s c u = false ∧ (s'.unit c u).st = .running then endSegment s' c u else s')
/-- LOOP: the count is latched; 0 skips the body; a third level is illegal. -/
def execLoop (c : CoreId) (u : UnitId) (f : MicroF) (s : State) : Out :=
  .next (microOp c u s true
    (fun x => f.b != 0 || f.c != 0 || f.d != 0 || f.m == 0 || decide (255 < f.m.toNat) || decide (2 ≤ x.loops.length)) noStream
    (fun r =>
      let n := (r.x.r f.a).toNat
      let pc := r.x.pc
      if n = 0 then { r with x := r.x.goto (pc + f.m.toNat + 1) }
      else { r with x := { r.x with pc := pc + 1, loops := (pc + 1, pc + f.m.toNat, n) :: r.x.loops } }))
/-- The target of a JNZ. -/
def jnzTarget (x : BankUnit) (f : MicroF) : Int := (x.pc : Int) + f.m.toInt
/-- JNZ. -/
def execJnz (c : CoreId) (u : UnitId) (f : MicroF) (s : State) : Out :=
  .next (microOp c u s false
    (fun x => f.b != 0 || f.c != 0 || f.d != 0 || f.m == 0
      || x.loops.any (fun l => decide (jnzTarget x f < (l.1 : Int)) || decide ((l.2.1 : Int) < jnzTarget x f))) noStream
    (fun r =>
      if r.x.r f.a = 0 then { r with x := r.x.goto (r.x.pc + 1) }
      else if jnzTarget r.x f < 0 then r.fail 2
      else { r with x := { r.x with pc := (jnzTarget r.x f).toNat } }))
/-- ADDI. -/
def execNbAddi (c : CoreId) (u : UnitId) (a b : BitVec 4) (imm : BitVec 18) (s : State) : Out :=
  .next (microOp c u s true (fun _ => false) noStream
    (andNext (fun r => { r with x := r.x.setR a (r.x.r b + imm.signExtend 32) (r.x.rBad b) })))
/-- LUI. -/
def execLui (c : CoreId) (u : UnitId) (a : BitVec 4) (imm : BitVec 22) (s : State) : Out :=
  .next (microOp c u s true (fun _ => false) noStream
    (andNext (fun r => { r with x := r.x.setR a (imm.setWidth 32 <<< 10) false })))
/-- The result of an ALU function. -/
def nbAluValue (fn sh : Nat) (x y : W32) : W32 :=
  match fn with
  | 0 => x + (y <<< sh)
  | 1 => x - y
  | 2 => x * y
  | 3 => x &&& y
  | 4 => x ||| y
  | 5 => x <<< (y.toNat % 32)
  | 6 => x >>> (y.toNat % 32)
  | 7 => if x.sle y then x else y
  | 8 => if x.sle y then y else x
  | 9 => fadd x y
  | 10 => fsub x y
  | 11 => fmul x y
  | 12 => fmax x y
  | 13 => fmin x y
  | _ => fexp2 (Config.approxErr 0) x
/-- ALU: fn 15 is reserved, a shift belongs to fn 0 only, fexp2 has one operand; fn 0-8 are of the 4-series. -/
def execAlu (c : CoreId) (u : UnitId) (f : MicroF) (s : State) : Out :=
  let fn := f.m.toNat % 16
  let sh := f.m.toNat / 16 % 32
  .next (microOp c u s (decide (fn ≤ 8))
    (fun _ => fn == 15 || (fn != 0 && sh != 0) || decide (512 ≤ f.m.toNat) || f.d != 0 || (fn == 14 && f.c != 0)) noStream
    (andNext (fun r => { r with x := r.x.setR f.a (nbAluValue fn sh (r.x.r f.b) (r.x.r f.c)) (r.x.rBad f.b || r.x.rBad f.c) })))
/-- LDW. -/
def execLdw (c : CoreId) (u : UnitId) (f : MicroF) (s : State) : Out :=
  .next (microOp c u s true (fun _ => f.c != 0 || f.d != 0) noStream
    (andNext (fun r =>
      let i := (r.x.r f.b).toNat + f.m.toNat
      if 8192 ≤ i then r.fail 1 else { r with x := r.x.setR f.a (r.x.w i) (r.x.wBad i) })))
/-- STW. -/
def execStw (c : CoreId) (u : UnitId) (f : MicroF) (s : State) : Out :=
  .next (microOp c u s true (fun _ => f.c != 0 || f.d != 0) noStream
    (andNext (fun r =>
      let i := (r.x.r f.b).toNat + f.m.toNat
      if 8192 ≤ i then r.fail 1 else { r with x := r.x.put i (r.x.r f.a) (r.x.rBad f.a) })))
/-- KVCFG: key and value formats K8, K4 or K2. -/
def execKvcfg (c : CoreId) (u : UnitId) (f : MicroF) (s : State) : Out :=
  let kf := f.m.toNat % 8
  let vf := f.m.toNat / 8 % 8
  let kv (x : Nat) : Bool := decide (2 ≤ x) && decide (x ≤ 4)
  .next (microOp c u s false (fun _ => f.c != 0 || f.d != 0 || !(kv kf) || !(kv vf)) noStream
    (andNext (fun r => { r with x := { r.x with stream := some {
      kfmt := kf, vfmt := vf, rot := f.m.getLsbD 6, w := 32 * (f.m.toNat / 128 + 1), prescale := r.x.r f.a, bad := r.x.rBad f.a,
      accBase := (r.x.r f.b).toNat } } })))
/-- ROTCFG: the position of the next key row; the phasors are evaluated directly (R251). -/
def execRotcfg (c : CoreId) (u : UnitId) (f : MicroF) (s : State) : Out :=
  .next (microOp c u s false (fun _ => f.b != 0 || f.c != 0 || f.d != 0 || f.m != 0) noStream
    (andNext (fun r => { r with x := { r.x with pos := r.x.r f.a, rowsSinceSync := 0 } })))

/-! ## Formats (R250, R253) -/

/-- Bits of an element of a format code: 0 FP32, 1 BF16, 2 K8, 3 K4, 4 K2, 5 A8. -/
def nbBits (f : Nat) : Nat := [32, 16, 8, 4, 2, 8].getD f 32
/-- The move format of a format code (Table 4.11). -/
def nbFmt (f : Nat) : Nat := [1, 2, 9, 10, 11, 3].getD f 1
/-- Key and value row formats. -/
def nbKv (f : Nat) : Bool := decide (2 ≤ f) && decide (f ≤ 4)
/-- The elements that share a scale: a row of 128, a block of 32, or one element. -/
def nbGroup (f : Nat) : Nat := if nbKv f then 128 else if f = 5 then 32 else 1
/-- Bytes of scale for each group. -/
def nbScale (f : Nat) : Nat := if nbKv f then 2 else if f = 5 then 1 else 0
/-- Bytes of n elements. -/
def nbBytes (f n : Nat) : Nat := n * nbBits f / 8
/-- Elements decoded to FP32 from their bytes and scales. -/
def nbDecode (f n : Nat) (es sc : List Byte) : List W32 :=
  if nbKv f then
    ((List.range (n / 128)).flatMap (fun i =>
      kvValues (nbBits f) (leNat ((sc.drop (2 * i)).take 2)) (unpackBits (nbBits f) 128 (es.drop (16 * nbBits f * i))))).map toF32
  else if f = 5 then (decodeElems 17 n 0 (padTo (up32 n) es ++ sc)).map toF32
  else (decodeElems (nbFmt f) n 0 es).map toF32
/-- Which of n decoded elements come from bad blocks. -/
def nbBadElem (f : Nat) (eb sb : List Bool) (i : Nat) : Bool :=
  eb.getD (i * nbBits f / 256) false || (nbScale f != 0 && sb.getD (i / nbGroup f * nbScale f / 32) false)
/-- Reads n elements of a format at a local address with scales at another: values with their taint. -/
def nbLoad (c : CoreId) (u : UnitId) (r : URun) (f n t sc : Nat) : URun × List (W32 × Bool) :=
  let e := bytesRead c u r t (nbBytes f n)
  let q := if nbScale f = 0 then (e.1, [], []) else bytesRead c u e.1 sc (n / nbGroup f * nbScale f)
  (q.1, (nbDecode f n e.2.1 q.2.1).zipIdx.map (fun v => (v.1, nbBadElem f e.2.2 q.2.2 v.2)))
/-- Writes n values in a format at a local address with scales at another (R42, R44, R35, R45). -/
def nbStore (c : CoreId) (u : UnitId) (r : URun) (f t sc : Nat) (vs : List (W32 × Bool)) : URun :=
  let n := vs.length
  let out := (convert 1 (nbFmt f) false r.x.sr 0 (fun i => Config.draw (r.s.free + i)) n (vs.flatMap (fun v => natLe 4 v.1.toNat))).out
  let r := { r with s := (r.s).drew (if r.x.sr ∨ f = 4 then n else 0) }
  let groups := (List.range (n / nbGroup f)).map (fun g => ((vs.drop (g * nbGroup f)).take (nbGroup f)).any (·.2))
  let bad (i : Nat) : Bool := groups.getD (i / nbGroup f) false
  let perBlock := 256 / nbBits f
  let r := bytesWrite c u r t (out.take (nbBytes f n)) (fun b => (List.range perBlock).any (fun j => bad (perBlock * b + j)))
  if nbScale f = 0 then r
  else
    let per := 32 / nbScale f
    bytesWrite c u r sc (out.drop (up32 (nbBytes f n))) (fun b => (List.range per).any (fun j => groups.getD (per * b + j) false))
/-- Whether a local address is misaligned. -/
def offGrid (v : W32) : Bool := v.toNat % 32 != 0

/-! ## Stream micro-operations (R250, R251, R253) -/

/-- Fields of LDR and STR: format, width. -/
def rowFmt (f : MicroF) : Nat × Nat := (f.m.toNat / 128, 32 * (f.m.toNat / 2 % 64 + 1))
/-- Whether the fields of LDR or STR are illegal: a reserved format, m[0], a key or value row that is not 128 wide, a scale register
where the format names none. -/
def rowBad (f : MicroF) (scales : Bool) : Bool :=
  let x := rowFmt f
  decide (5 < x.1) || f.m.getLsbD 0 || (nbKv x.1 && x.2 != 128) || (!scales && f.d != 0)
/-- LDR. -/
def execLdr (c : CoreId) (u : UnitId) (f : MicroF) (s : State) : Out :=
  let x := rowFmt f
  .next (microOp c u s true (fun _ => rowBad f (nbKv x.1)) (fun y => y.r f.c != 0)
    (andNext (fun r =>
      let n := (r.x.r f.c).toNat * x.2
      let t := (r.x.r f.a).toNat
      let sc := if x.1 = 5 then t + up32 n else (r.x.r f.d).toNat
      if n = 0 then r
      else
        let r := (r.check (scrOver (r.x.r f.b).toNat n) 1).check (offGrid (r.x.r f.a) || (nbKv x.1 && offGrid (r.x.r f.d))) 3
        let q := nbLoad c u r x.1 n t sc
        if q.1.code ≠ 0 then q.1 else { q.1 with x := q.1.x.putAll (r.x.r f.b).toNat q.2 })))
/-- STR. -/
def execStr (c : CoreId) (u : UnitId) (f : MicroF) (s : State) : Out :=
  let x := rowFmt f
  .next (microOp c u s true (fun _ => rowBad f (nbScale x.1 != 0)) (fun y => y.r f.c != 0)
    (andNext (fun r =>
      let n := (r.x.r f.c).toNat * x.2
      let src := (r.x.r f.a).toNat
      let t := (r.x.r f.b).toNat
      let sc := (r.x.r f.d).toNat
      if n = 0 then r
      else
        let r := (r.check (scrOver src n) 1).check
          (t % 32 != 0 || nbBytes x.1 n % 32 != 0 || (nbScale x.1 != 0 && (sc % 32 != 0 || n / nbGroup x.1 * nbScale x.1 % 32 != 0))) 3
        if r.code ≠ 0 then r
        else nbStore c u r x.1 t sc ((List.range n).map (fun i => (r.x.w (src + i), r.x.wBad (src + i)))))))
/-- CVT: local to local through FP32. -/
def execCvt (c : CoreId) (u : UnitId) (f : MicroF) (s : State) : Out :=
  let sf := f.m.toNat / 128
  let df := f.m.toNat / 16 % 8
  let uses := nbKv sf || nbScale df != 0
  let d1 : BitVec 4 := f.d + 1
  .next (microOp c u s false
    (fun _ => decide (5 < sf) || decide (5 < df) || f.m.toNat % 16 != 0 || (!uses && f.d != 0) || (nbScale df != 0 && f.d == 15))
    (fun y => y.r f.c != 0)
    (andNext (fun r =>
      let n := (r.x.r f.c).toNat
      let t := (r.x.r f.a).toNat
      let o := (r.x.r f.b).toNat
      let sc := if sf = 5 then t + up32 n else (r.x.r f.d).toNat
      let oc := (r.x.r d1).toNat
      if n = 0 then r
      else
        let r := r.check (t % 32 != 0 || o % 32 != 0 || (nbKv sf && sc % 32 != 0) || n % nbGroup sf != 0 || n % nbGroup df != 0
          || nbBytes df n % 32 != 0 || (nbScale df != 0 && (oc % 32 != 0 || n / nbGroup df * nbScale df % 32 != 0))) 3
        let q := nbLoad c u r sf n t sc
        if q.1.code ≠ 0 then q.1 else nbStore c u q.1 df o oc q.2)))
/-- RLOAD. -/
def execRload (c : CoreId) (u : UnitId) (f : MicroF) (s : State) : Out :=
  .next (microOp c u s true (fun _ => f.b != 0 || f.c != 0 || f.d != 0 || decide (7 < f.m.toNat)) (fun _ => true)
    (andNext (fun r =>
      let slot := f.m.toNat
      let t := (r.x.r f.a).toNat
      let q := bytesRead c u (r.check (t % 32 != 0) 3) t 264
      if q.1.code ≠ 0 then q.1
      else
        let put (m : SMap Byte) (at_ : Nat) (bs : List Byte) : SMap Byte :=
          (bs.zipIdx).foldl (fun m v => smPut 0 m (at_ + v.2) v.1) m
        let bit : BitVec 8 := BitVec.ofNat 8 (2 ^ slot)
        { q.1 with x := { q.1.x with
          resMant := put q.1.x.resMant (256 * slot) (q.2.1.take 256), resExp := put q.1.x.resExp (8 * slot) (q.2.1.drop 256),
          taintR := if q.2.2.any id then q.1.x.taintR ||| bit else q.1.x.taintR &&& ~~~bit } })))
/-- GATHER: items of m[5:0] + 1 blocks named by a list of 32-bit indices. -/
def execGather (c : CoreId) (u : UnitId) (f : MicroF) (s : State) : Out :=
  let len := 32 * (f.m.toNat % 64 + 1)
  let mode := f.m.toNat / 64 % 4
  let fmt := f.m.toNat / 256
  .next (microOp c u s false (fun _ => mode == 3 || decide (1 < fmt)) (fun y => y.r f.d != 0)
    (andNext (fun r =>
      let n := (r.x.r f.d).toNat
      let dst := (r.x.r f.a).toNat
      let elems := len * 8 / nbBits fmt
      if n = 0 then r
      else
        let r := (r.check (mode != 0 && scrOver dst elems) 1).check
          (offGrid (r.x.r f.b) || offGrid (r.x.r f.c) || (mode == 0 && dst % 32 != 0)) 3
        let ix := bytesRead c u r (r.x.r f.b).toNat (4 * n)
        (List.range n).foldl (fun r i =>
          if r.code ≠ 0 then r
          else
            let at_ := (r.x.r f.c).toNat + leNat ((ix.2.1.drop (4 * i)).take 4) * len
            let ixBad := ix.2.2.getD (i / 8) false
            let item := bytesRead c u r at_ len
            if item.1.code ≠ 0 then item.1
            else if mode = 0 then bytesWrite c u item.1 (dst + len * i) item.2.1 (fun b => ixBad || item.2.2.getD b false)
            else
              let vs := (nbDecode fmt elems item.2.1 []).zipIdx
              let x := vs.foldl (fun (x : BankUnit) v =>
                let o := x.w (dst + v.2)
                let bad := ixBad || item.2.2.getD (v.2 * nbBits fmt / 256) false || x.wBad (dst + v.2)
                x.put (dst + v.2) (if mode = 1 then fadd o v.1 else fmax o v.1) bad) item.1.x
              { item.1 with x := x }) ix.1)))

/-- The elements of a key or value row: c_j, 0 where the scale reads as 0 from −0. -/
def rowCodes (fmt w : Nat) (es : List Byte) (scale : Nat) : List Int :=
  (unpackBits (nbBits fmt) w es).map (fun (c : Nat) => if scale = 0x8000 then (0 : Int) else if fmt = 4 then 2 * (c : Int) - 3 else sext (nbBits fmt) c)
/-- A row scale: its value, −0 as +0; none when it makes the row NaN (R251). -/
def rowScale (v : Nat) : Option FVal :=
  match FFmt.bf16.dec v with
  | .fin neg m e => if neg then (if m = 0 then some FVal.zero else none) else some (.fin false m e)
  | _ => none
/-- Sum of a list in a tree of adjacent pairs, by levels. -/
def pairTree : Nat → List W32 → W32
  | 0, l => l.headD 0
  | n + 1, l => pairTree n ((List.range ((l.length + 1) / 2)).map (fun i =>
      if 2 * i + 1 < l.length then fadd (l.getD (2 * i) 0) (l.getD (2 * i + 1) 0) else l.getD (2 * i) 0))
/-- A resident slot's mantissa and block exponent. -/
def BankUnit.q (x : BankUnit) (h j : Nat) : Int := sext 8 ((smGet x.resMant (256 * h + j)).getD 0).toNat
def BankUnit.e (x : BankUnit) (h b : Nat) : Nat := ((smGet x.resExp (8 * h + b)).getD 0).toNat
/-- A term of a block at a resident exponent; 0xFF makes the slot NaN. -/
def blockScale (v : FVal) (e : Nat) : W32 := if e = 0xFF then qnan else toF32 (v.scale ((e : Int) - 133))
/-- A row's elements times its scale, rotated for a position where a pair lies below rope_pairs; each output rounded once. -/
def rotatedRow (x : BankUnit) (s : FVal) (cs : List Int) (pos : W32) (since : Nat) : List W32 :=
  let k := cs.map (fun c => (FVal.ofInt c).mul s)
  cs.zipIdx.map (fun v =>
    let j := v.2 / 2
    let a := k.getD (2 * j) FVal.zero
    let b := k.getD (2 * j + 1) FVal.zero
    if x.ropePairs ≤ j then toF32 (k.getD v.2 FVal.zero)
    else
      let p := Config.phasor x.ropeBase x.ropeScale x.ropePairs j pos since
      let cs := f32v p.1
      let sn := f32v p.2
      if v.2 % 2 = 0 then toF32 ((a.mul cs).add (b.mul sn).neg) else toF32 ((a.mul sn).add (b.mul cs)))
/-- The score of one row against one slot (R251). -/
def score (x : BankUnit) (cfg : StreamCfg) (es : List Byte) (scale : Nat) (pos : W32) (since h : Nat) : W32 :=
  match rowScale scale with
  | none => qnan
  | some s =>
    let cs := rowCodes cfg.kfmt cfg.w es scale
    let blocks := List.range (cfg.w / 32)
    if cfg.rot then
      let k := rotatedRow x s cs pos since
      let terms := blocks.map (fun b =>
        let ps := (List.range 32).map (fun i => fmul (toF32 (FVal.ofInt (x.q h (32 * b + i)))) (k.getD (32 * b + i) 0))
        blockScale (f32v (pairTree 5 ps)) (x.e h b))
      fmul (terms.tail.foldl fadd (terms.headD 0)) cfg.prescale
    else
      let terms := blocks.map (fun b =>
        let i : Int := ((List.range 32).map (fun i => x.q h (32 * b + i) * cs.getD (32 * b + i) 0)).sum
        blockScale (FVal.ofInt i) (x.e h b))
      let d := terms.tail.foldl fadd (terms.headD 0)
      fmul (toF32 (s.mul (f32v d))) cfg.prescale
/-- The slots of a mask. -/
def slotsIn (m : Nat) : List Nat := (List.range 8).filter (fun h => m.testBit h)
/-- Rows and scales of a DOTS or SACC: bytes with bad blocks. -/
structure RowData where
  es : List Byte
  eb : List Bool
  sc : List Byte
  sb : List Bool
  deriving DecidableEq, Repr
/-- The bytes, scale and taint of a row. -/
def RowData.row (d : RowData) (fmt w r : Nat) : List Byte × Nat × Bool :=
  let n := w * nbBits fmt / 8
  let lo := r * n
  ((d.es.drop lo).take n, leNat ((d.sc.drop (2 * r)).take 2),
   (List.range (n / 32 + 2)).any (fun i => decide (32 * (lo / 32 + i) < lo + n) && d.eb.getD (lo / 32 + i) false) || d.sb.getD (r / 16) false)
/-- The checks and reads that DOTS and SACC share. -/
def streamRows (c : CoreId) (u : UnitId) (r : URun) (f : MicroF) (fmt w words : Nat) (acc : Option (Nat × Nat)) : URun × RowData :=
  let n := (r.x.r f.c).toNat
  let hs := slotsIn f.m.toNat
  let above := hs.any (fun h => scrOver (words + 256 * h) n || (match acc with | some (a, k) => scrOver (a + 256 * h) k | none => false))
  let r := ((r.check (decide (256 < n)) 1).check above 1).check (offGrid (r.x.r f.a) || offGrid (r.x.r f.d)) 3
  let e := bytesRead c u r (r.x.r f.a).toNat (n * w * nbBits fmt / 8)
  let q := bytesRead c u e.1 (r.x.r f.d).toNat (2 * n)
  (q.1, { es := e.2.1, eb := e.2.2, sc := q.2.1, sb := q.2.2 })
/-- DOTS: scores of key rows against the resident slots of the mask. -/
def execDots (c : CoreId) (u : UnitId) (f : MicroF) (s : State) : Out :=
  .next (microOp c u s (match (s.unit c u).stream with | some cfg => !cfg.rot | none => true)
    (fun x => x.stream.isNone || decide (255 < f.m.toNat)) (fun y => y.r f.c != 0)
    (andNext (fun r =>
      match r.x.stream with
      | none => r
      | some cfg =>
        let n := (r.x.r f.c).toNat
        let b := (r.x.r f.b).toNat
        if n = 0 then r
        else
          let q := streamRows c u r f cfg.kfmt cfg.w b none
          if q.1.code ≠ 0 then q.1
          else
            let x0 := q.1.x
            let x := (List.range n).foldl (fun (x : BankUnit) i =>
              let row := q.2.row cfg.kfmt cfg.w i
              (slotsIn f.m.toNat).foldl (fun (x : BankUnit) h =>
                x.put (b + 256 * h + i) (score x0 cfg row.1 row.2.1 (x0.pos + BitVec.ofNat 32 i) ((x0.rowsSinceSync + i) % 256) h)
                  (row.2.2 || cfg.bad || x0.taintR.getLsbD h)) x) x0
            { q.1 with x := { x with pos := x.pos + BitVec.ofNat 32 n, rowsSinceSync := (x.rowsSinceSync + n) % 256 } })))
/-- SACC: weighted value rows accumulated, rows in ascending order. -/
def execSacc (c : CoreId) (u : UnitId) (f : MicroF) (s : State) : Out :=
  .next (microOp c u s false (fun x => x.stream.isNone || decide (255 < f.m.toNat)) (fun y => y.r f.c != 0)
    (andNext (fun r =>
      match r.x.stream with
      | none => r
      | some cfg =>
        let n := (r.x.r f.c).toNat
        let b := (r.x.r f.b).toNat
        if n = 0 then r
        else
          let q := streamRows c u r f cfg.vfmt cfg.w b (some (cfg.accBase, cfg.w))
          if q.1.code ≠ 0 then q.1
          else
            let x := (List.range n).foldl (fun (x : BankUnit) i =>
              let row := q.2.row cfg.vfmt cfg.w i
              let cs := rowCodes cfg.vfmt cfg.w row.1 row.2.1
              (slotsIn f.m.toNat).foldl (fun (x : BankUnit) h =>
                let k := b + 256 * h + i
                let t := match rowScale row.2.1 with | some s => toF32 ((f32v (x.w k)).mul s) | none => qnan
                let bad := row.2.2 || x.wBad k
                (cs.zipIdx).foldl (fun (x : BankUnit) v =>
                  let o := cfg.accBase + 256 * h + v.2
                  x.put o (ffma t (toF32 (FVal.ofInt v.1)) (x.w o)) (bad || x.wBad o)) x) x) q.1.x
            { q.1 with x := x })))

/-! ## Scratch (R250) -/

/-- One element of a VOP. -/
def vopValue (fn : Nat) (src dst d : W32) : W32 :=
  match fn with
  | 0 => src
  | 1 => d
  | 2 => fadd src d
  | 3 => fmul src d
  | 4 => fexp2 (Config.approxErr 0) (fsub src d)
  | 5 => fmax src d
  | 6 => fadd dst src
  | 7 => fmax dst src
  | _ => ffma src d dst
/-- VOP: sources are read before any word is written. -/
def execVop (c : CoreId) (u : UnitId) (f : MicroF) (s : State) : Out :=
  let fn := f.m.toNat
  let usesD := fn != 0 && fn != 6 && fn != 7
  .next (microOp c u s (decide (fn ≤ 7)) (fun _ => decide (8 < fn) || (fn == 1 && f.b != 0) || (!usesD && f.d != 0)) noStream
    (andNext (fun r =>
      let n := (r.x.r f.c).toNat
      let dst := (r.x.r f.a).toNat
      let src := (r.x.r f.b).toNat
      let d := r.x.r f.d
      if scrOver dst n || (fn != 1 && scrOver src n) then r.fail 1
      else
        let vs := (List.range n).map (fun i =>
          (vopValue fn (r.x.w (src + i)) (r.x.w (dst + i)) d,
           (fn != 1 && r.x.wBad (src + i)) || (usesD && r.x.rBad f.d) || (decide (6 ≤ fn) && r.x.wBad (dst + i))))
        { r with x := r.x.putAll dst vs })))
/-- VRED: the order of the additions is open (log entry 25). -/
def execVred (c : CoreId) (u : UnitId) (f : MicroF) (s : State) : Out :=
  let fn := f.m.toNat
  .next (microOp c u s true (fun _ => decide (2 < fn) || f.d != 0) noStream
    (andNext (fun r =>
      let n := (r.x.r f.c).toNat
      let src := (r.x.r f.b).toNat
      if scrOver src n then r.fail 1
      else
        let ws := (List.range n).map (fun i => r.x.w (src + i))
        let bad := (List.range n).any (fun i => r.x.wBad (src + i))
        let v := match fn with
          | 0 => freeSum r.s.free ws
          | 1 => (match ws with | [] => Config.maxOfNone r.s.free | w :: t => t.foldl fmax w)
          | _ => freeSum r.s.free (ws.map (fun w => fmul w w))
        { r with s := (r.s).drew 1, x := r.x.setR f.a v bad })))

end Sys2Proof.Machine
end

