-- ==== Sys2Proof/Machine/Descs.lean ====
section
/-! DEFINITION. Descriptors that hand work to the schedulers: WORK, STEP, SEQ, SOUND, TABLE (R299-R301, R336, R337, R383, R388). -/

namespace Sys2Proof.Machine

/-! ## Lists in an order -/

/-- Inserts a member before the first that it comes before. -/
def insertBy {α : Type} (before : α → α → Bool) (x : α) : List α → List α
  | [] => [x]
  | y :: t => if before x y then x :: y :: t else y :: insertBy before x t
/-- A list put in an order; members that neither comes before keep theirs. -/
def sortBy {α : Type} (before : α → α → Bool) (l : List α) : List α := l.foldl (fun acc x => insertBy before x acc) []

/-! ## WORK (R300, R336) -/

/-- A work item from its descriptor's words (Table 4.16); context and partition are the ring's. -/
def itemOf (x : Ctx) (d : Desc) (builder : Option W32) (first count order : Nat) (ws : List W64) : WorkItem :=
  let q (i : Nat) : W64 := ws.getD i 0
  { workItem := BitVec.ofNat 32 (bits (q 0) 32 32), context := x.num, partition := x.part, priority := BitVec.ofNat 8 (bits (q 0) 8 8),
    preemptible := bit (q 0) 0, progBase := q 1, progLen := BitVec.ofNat 32 (bits (q 2) 32 32), entry := (q 2).setWidth 32, argAddr := q 3,
    bindCount := BitVec.ofNat 16 (bits (q 4) 32 16), waitLimit := (q 4).setWidth 32, bindAddr := q 5, tag := q 6,
    argLen := (q 7).setWidth 16, seq := d.seq, firstCore := first, coreCount := count, builderOf := builder, stepPhase := none,
    movable := false, eqFirst := first, eqCount := count, table := none, fetchOrder := order, peer := d.peer, pages := [], tails := [] }
/-- The bytes of a spread range that a partition may read: none when R220 refuses it. -/
def spreadArea (s : State) (p : PartId) (addr : W64) (n : Nat) (write : Bool) : Option Nat :=
  match remoteParts addr with
  | some (1, a) => if (s.accessFails p 0 1 a n write).isNone then some a else none
  | _ => none
/-- WORK: the leader takes the array; builders put their table into BUILDING. -/
def execWork (ctx : CtxId) (seq : W32) (s : State) : Out :=
  .next (
    match startable s ctx seq 1 with
    | none => s
    | some (x, d) =>
      let q (i : Nat) : W64 := d.words.getD i 0
      let n := bits (q 2) 48 16
      let cores := bits (q 2) 29 10
      let first := if cores = 0 then lowCore s x.part else bits (q 2) 39 9
      let tid : W32 := (q 3).setWidth 32
      if leaderUp s first = false then s
      else
        let tab := s.tables.find? (fun t => t.id == tid && t.ctx == ctx)
        if tid ≠ 0xFFFFFFFF ∧ tab.isNone then s.recordLast ctx d.id stDescInvalid
        else if tid ≠ 0xFFFFFFFF ∧ tab.any (fun t => t.st != .stable) then s.recordLast ctx d.id stTableBusy
        else match spreadArea s x.part (q 1) (64 * n) false with
          | none => s.recordLast ctx d.id stDescInvalid
          | some a =>
            if s.rangeHeld 0 1 a (64 * n) then s
            else
              let r := s.viewRead 0 1 a (64 * n)
              if r.2.2 then r.1.recordLast ctx d.id stDataPoison
              else
                let ws := leWords r.2.1 (8 * n)
                let s := r.1
                let b := if tid = 0xFFFFFFFF then none else some tid
                let items := (List.range n).map (fun j => itemOf x d b first cores (s.sched.order + j) ((ws.drop (8 * j)).take 8))
                let s := { s with sched := { s.sched with waiting := s.sched.waiting ++ items, order := s.sched.order + n } }
                let build (t : Table) : Table := { t with st := .building, builders := n, failed := false }
                let s := { s with tables := updWhere (fun (t : Table) => t.id == tid && t.ctx == ctx) build s.tables }
                markStarted s ctx d)

/-! ## STEP (R337, R388, R390) -/

/-- A phase entry of a layer plan table (Table 14.2). -/
structure PhaseP where
  kind : Nat
  priority : Byte
  barrier : Bool
  movable : Bool
  preemptible : Bool
  waitLimit : W32
  progBase : W64
  progLen : W32
  entry : W32
  argBase : W64
  strideLayer : Nat
  bindCount : Nat
  argLen : Nat
  bindAddr : W64
  firstCore : Nat
  coreCount : Nat
  strideCore : Nat
  deriving DecidableEq, Repr
/-- A layer plan table. -/
structure PlanP where
  layers : Nat
  workArea : W64
  workSize : Nat
  phases : List PhaseP
  deriving DecidableEq, Repr
/-- A phase entry from its words. -/
def phaseOf (ws : List W64) : PhaseP :=
  let q (i : Nat) : W64 := ws.getD i 0
  { kind := bits (q 0) 56 8, priority := BitVec.ofNat 8 (bits (q 0) 48 8), barrier := bit (q 0) 47, movable := bit (q 0) 46,
    preemptible := bit (q 0) 45, waitLimit := (q 0).setWidth 32, progBase := q 1, progLen := BitVec.ofNat 32 (bits (q 2) 32 32),
    entry := (q 2).setWidth 32, argBase := q 3, strideLayer := bits (q 4) 32 32, bindCount := bits (q 4) 16 16, argLen := bits (q 4) 0 16,
    bindAddr := q 5, firstCore := bits (q 6) 55 9, coreCount := bits (q 6) 45 10, strideCore := bits (q 6) 0 32 }
/-- Whether a phase entry keeps Table 14.2 and names only what a partition may read (R388). -/
def phaseOk (s : State) (p : PartId) (ws : List W64) : Bool :=
  let f := phaseOf ws
  let area (addr : W64) (n : Nat) : Bool := n == 0 || (spreadArea s p addr n false).isSome
  decide (f.kind ≤ 2) && bits (ws.getD 0 0) 32 13 == 0 && decide (f.bindCount ≤ 254) && decide (f.argLen ≤ 1024) && f.argLen % 8 == 0
  && bits (ws.getD 6 0) 32 13 == 0 && decide (1 ≤ f.coreCount) && decide (f.firstCore + f.coreCount ≤ 512)
  && (List.range f.coreCount).all (fun i => (s.part p).cores.contains (f.firstCore + i) || (s.core (Fin.ofNat 512 (f.firstCore + i))).fenced)
  && area f.progBase (8 * f.progLen.toNat) && area f.bindAddr (16 * f.bindCount) && area f.argBase f.argLen
/-- The layer plan table at an address; none when it breaks its layout (R388). -/
def readPlan (s : State) (p : PartId) (addr : W64) : State × Option PlanP :=
  match spreadArea s p addr 64 false with
  | none => (s, none)
  | some a =>
    let h := s.viewRead 0 1 a 64
    let ws := leWords h.2.1 8
    let q (i : Nat) : W64 := ws.getD i 0
    let layers := bits (q 0) 48 16
    let n := bits (q 0) 40 8
    if a % 64 ≠ 0 ∨ layers = 0 ∨ 4096 < layers ∨ n = 0 ∨ 16 < n ∨ bits (q 0) 8 32 ≠ 0 ∨ bits (q 0) 0 8 ≠ 1 ∨ bits (q 1) 0 12 ≠ 0
        ∨ bits (q 2) 32 32 ≠ 0 ∨ (ws.drop 3).any (· != 0) ∨ h.2.2 ∨ (spreadArea s p addr (64 + 64 * n) false).isNone
        ∨ (spreadArea s p (q 1) (4096 * bits (q 2) 0 32) true).isNone then (h.1, none)
    else
      let e := h.1.viewRead 0 1 (a + 64) (64 * n)
      let es := leWords e.2.1 (8 * n)
      let entry (j : Nat) : List W64 := (es.drop (8 * j)).take 8
      if e.2.2 ∨ (List.range n).any (fun j => !(phaseOk e.1 p (entry j))) then (e.1, none)
      else (e.1, some { layers := layers, workArea := q 1, workSize := bits (q 2) 0 32, phases := (List.range n).map (fun j => phaseOf (entry j)) })
/-- Sequences of a context in PAGE_WAIT in the order of their retries: highest priority, then longest waiting (Table 10.9). -/
def waiters (s : State) (c : CtxId) : List Seq :=
  sortBy (fun a b => decide (b.priority.toNat < a.priority.toNat) || (a.priority == b.priority && decide (a.waitSince < b.waitSince)))
    (s.seqs.filter (fun q => q.ctx == c && q.st == .pageWait))
/-- Whether a sequence stands in a step that has not completed, its withheld token included (R337). -/
def inStep (s : State) (c : CtxId) (q : Seq) : Bool :=
  q.st == .pageWait || q.withheld.isSome || s.sched.steps.any (fun r => r.ctx == c && r.batch.any (fun b => b.1 == q.seqId))
/-- STEP: entries that cannot run complete at once; the rest and the sequences in PAGE_WAIT are to be given pages. -/
def execStep (ctx : CtxId) (seq : W32) (s : State) : Out :=
  .next (
    match startable s ctx seq 2 with
    | none => s
    | some (x, d) =>
      let q (i : Nat) : W64 := d.words.getD i 0
      let n := bits (q 2) 0 16
      if leaderUp s (lowCore s x.part) = false then s
      else
        let none_ (s : State) : State := (List.range n).foldl (fun s _ => s.record ctx d.id stDescInvalid) (markStarted s ctx d)
        match spreadArea s x.part (q 1) (4 * n) false with
        | none => none_ s
        | some a =>
          if s.rangeHeld 0 1 a (4 * n) then s
          else
            let r := s.viewRead 0 1 a (4 * n)
            let ids : List W32 := (List.range n).map (fun j => BitVec.ofNat 32 (leNat ((r.2.1.drop (4 * j)).take 4)))
            let plan := readPlan r.1 x.part (q 3)
            if plan.2.isNone ∨ r.2.2 then none_ plan.1
            else
              let s := markStarted plan.1 ctx d
              let stepNo : W32 := (q 4).setWidth 32
              let retry := (waiters s ctx).map (·.seqId)
              let take (acc : State × List W32) (id : W32) : State × List W32 :=
                match (acc.1).seq? ctx id with
                | some y =>
                  if y.st = .ending then ((acc.1).record ctx d.id stSeqUnknown (id.setWidth 64), acc.2)
                  else if inStep acc.1 ctx y ∨ acc.2.contains id then ((acc.1).record ctx d.id stSeqBusy (id.setWidth 64), acc.2)
                  else ((acc.1).modSeq ctx id (fun y => { y with lastStep := stepNo, own := if y.own = stSeqBusy then 0 else y.own }),
                        acc.2 ++ [id])
                | none => ((acc.1).record ctx d.id stSeqUnknown (id.setWidth 64), acc.2)
              let t := ids.foldl take (s, [])
              if t.2.isEmpty ∧ retry.isEmpty then t.1
              else
                let run : StepRun := {
                  ctx := ctx, seq := d.id, stepNo := stepNo, batch := t.2.map (fun id => (id, d.id)), gone := [], toAlloc := retry ++ t.2,
                  planAddr := q 3,
                  rows := ids.zipIdx, layers := (plan.2.map (·.layers)).getD 0, layer := 0, phase := 0, areaUsed := 0, openItems := [], failed := none, poison := false }
                { t.1 with sched := { t.1.sched with steps := t.1.sched.steps ++ [run] } })

/-! ## SEQ (R274, R301, R337) -/

/-- SEQ op 1. -/
def seqOpenOp (s : State) (x : Ctx) (d : Desc) : State :=
  let q (i : Nat) : W64 := d.words.getD i 0
  let id : W32 := (q 1).setWidth 32
  let first := bits (q 2) 55 9
  let count := bits (q 2) 45 10
  let member := bits (q 4) 24 8
  let members := bits (q 4) 16 8
  let ring := bit (q 2) 0
  if x.kv.isNone then s.record x.num d.id stKvConfig
  else if (s.seq? x.num id).isSome then s.record x.num d.id stSeqExists
  else if count = 0 ∨ 512 < first + count ∨ (ring && (decide (members < 2) || decide (members ≤ member)))
      ∨ (List.range count).any (fun i => !((s.part x.part).cores.contains (first + i))) then s.record x.num d.id stDescInvalid
  else
    let y : Seq := {
      ctx := x.num, seqId := id, part := x.part, st := .active, priority := BitVec.ofNat 8 (bits (q 2) 8 8), evictable := bit (q 2) 1,
      ring := ring, tokens := 0, firstPos := (q 3).setWidth 32, waitSince := 0, waitLogged := false, firstCore := first, coreCount := count,
      lastStep := 0, ringId := BitVec.ofNat 32 (bits (q 4) 32 32), member := BitVec.ofNat 8 member, members := BitVec.ofNat 8 members,
      narrowPages := 0, landed := false, passNo := 0, endDesc := none, narrowDesc := none, withheld := none, allocSince := none,
      expired := false, own := 0 }
    { s with seqs := s.seqs ++ [y] }.record x.num d.id stOk
/-- The sequence that a SEQ descriptor of ops 2 to 4 names, when it is open. -/
def openSeq (s : State) (c : CtxId) (d : Desc) : Option Seq :=
  match s.seq? c ((d.words.getD 1 0).setWidth 32) with
  | some y => if y.st = .ending then none else some y
  | none => none
/-- Runs an op of SEQ on an open sequence, when its scheduler is up. -/
def seqOp (s : State) (c : CtxId) (seq : W32) (op : Nat) (f : State → Ctx → Desc → Seq → State) : State :=
  match startable s c seq 4 with
  | none => s
  | some (x, d) =>
    if bits (d.words.getD 1 0) 56 8 ≠ op then s
    else match openSeq s c d with
      | none => s.record c d.id stSeqUnknown
      | some y => if leaderUp s y.firstCore then f s x d y else s
/-- SEQ_OPEN. -/
def execSeqOpen (ctx : CtxId) (seq : W32) (s : State) : Out :=
  .next (
    match startable s ctx seq 4 with
    | none => s
    | some (x, d) =>
      if bits (d.words.getD 1 0) 56 8 ≠ 1 ∨ leaderUp s (bits (d.words.getD 2 0) 55 9) = false then s else seqOpenOp s x d)
/-- A sequence in ENDING: its unpinned pages are freed; with none left the record goes and its descriptor completes. -/
def settleEnd (s : State) (c : CtxId) (id : W32) : State :=
  match s.seq? c id with
  | none => s
  | some y =>
    if y.st ≠ .ending then s
    else
      let s := freeEnding s c id
      if (s.seqPages c id).isEmpty then
        let s := { s with
          seqs := s.seqs.filter (fun z => !(z.ctx == c && z.seqId == id)),
          extents := s.extents.filter (fun e => !(e.key.ctx == c && e.key.seqId == id)) }
        match y.endDesc with
        | some i => s.record c i stOk
        | none => s
      else s
/-- SEQ_END: a withheld token ends with ST_CANCELLED (log entry 27). -/
def execSeqEnd (ctx : CtxId) (seq : W32) (s : State) : Out :=
  .next (seqOp s ctx seq 2 (fun s _ d y =>
    let s := match y.withheld with
      | some i => s.record ctx i stCancelled (y.seqId.setWidth 64)
      | none => s
    let s := match y.narrowDesc with
      | some i => s.record ctx i stOk
      | none => s
    let s := s.modSeq ctx y.seqId (fun y => { y with st := .ending, endDesc := some d.id, withheld := none, narrowDesc := none })
    settleEnd (markStarted s ctx d) ctx y.seqId))
/-- SEQ_SET. -/
def execSeqSet (ctx : CtxId) (seq : W32) (s : State) : Out :=
  .next (seqOp s ctx seq 3 (fun s _ d y =>
    let w := d.words.getD 2 0
    (s.modSeq ctx y.seqId (fun y => { y with priority := BitVec.ofNat 8 (bits w 8 8), evictable := bit w 1 })).record ctx d.id stOk))
/-- Whether a page is eligible for a narrowing: full, below the limit, RESIDENT, unpinned, no tail, not already moving. -/
def narrows (s : State) (y : Seq) (limit kf vf : Nat) (p : Page) : Bool :=
  p.st == .resident && p.pins == 0 && p.count == 256 && p.migrate.isNone && p.narrow.isNone && decide (p.kfmt ≤ kf) && decide (p.vfmt ≤ vf)
  && (p.kfmt != kf || p.vfmt != vf) && decide (y.firstPos.toNat + 256 * (p.key.page + 1) ≤ limit)
  && (match tailOf (s.seqPages y.ctx y.seqId) p.key.stream with | some t => t.key != p.key | none => false)
/-- A frame for a narrowed page in the page's own bank pair. -/
def narrowFrame (s : State) (pool : Region) (kf vf : Nat) (p : Page) : State :=
  match bestRun (frameRows kf vf) 1 (s.unitRuns pool p.core p.unit) with
  | some r => s.modPage p.key (fun p => { p with narrow := some (r.1, kf, vf, p.gen) })
  | none => s
/-- SEQ_NARROW: it completes when every eligible page has been narrowed, at the next plan build, or passed over. -/
def execSeqNarrow (ctx : CtxId) (seq : W32) (s : State) : Out :=
  .next (seqOp s ctx seq 4 (fun s _ d y =>
    let w := d.words.getD 3 0
    let kf := bits w 3 3
    let vf := bits w 0 3
    if isRowFmt kf = false ∨ isRowFmt vf = false then s.record ctx d.id stDescInvalid
    else match y.narrowDesc, s.kvOf ctx with
      | none, some (_, pool) =>
        let limit := bits (d.words.getD 2 0) 0 32
        let go := (s.seqPages ctx y.seqId).filter (narrows s y limit kf vf)
        let s := go.foldl (fun s p => narrowFrame s pool kf vf p) s
        if (s.seqPages ctx y.seqId).any (fun p => p.narrow.isSome) then
          markStarted (s.modSeq ctx y.seqId (fun y => { y with narrowDesc := some d.id })) ctx d
        else s.record ctx d.id stOk
      | _, _ => s))

/-! ## SOUND and TABLE (R155, R299, R337) -/

/-- SOUND. -/
def execSound (ctx : CtxId) (seq : W32) (s : State) : Out :=
  .next (
    match startable s ctx seq 5 with
    | none => s
    | some (x, d) =>
      let low := lowCore s x.part
      if leaderUp s low = false then s
      else match tableBase x with
        | none => s.record ctx d.id stSoundRange
        | some base =>
          let t : TowerId := Fin.ofNat 8 (low / 64)
          let c : CoreId := Fin.ofNat 512 (64 * t.val)
          let tag : BitVec 12 := (d.words.getD 1 0).setWidth 12
          let level := bits (d.words.getD 2 0) 0 2
          let h := spreadWord s c base
          let e := base + 256 + 256 * tag.toNat + 32
          let w := spreadWord h.1 c e
          if bits h.2 16 16 ≤ tag.toNat ∨ bits w.2 44 2 < level then w.1.record ctx d.id stSoundRange
          else
            let s := spreadMod w.1 c e (fun q => (q &&& ~~~(0x00000C00FFFFFFFF#64)) ||| w64 (level * 2 ^ 42) ||| ((q.setWidth 32 : W32) + 1).setWidth 64)
            let s := { s with sched := { s.sched with levels := setLevel s.sched.levels { tower := t, ctx := ctx, tag := tag, level := level } } }
            s.record ctx d.id stOk)
/-- TABLE_CREATE. -/
def execTableCreate (ctx : CtxId) (seq : W32) (s : State) : Out :=
  .next (
    match startable s ctx seq 6 with
    | none => s
    | some (x, d) =>
      if bits (d.words.getD 1 0) 56 8 ≠ 1 ∨ leaderUp s (lowCore s x.part) = false then s
      else
        let id := freshId s.free (s.tables.map (·.id))
        let t : Table := { id := id, ctx := ctx, st := .stable, committed := false, arg0 := d.words.getD 2 0, arg1 := d.words.getD 3 0,
                           version := 0, builders := 0, failed := false, oldUsers := 0 }
        ({ s with tables := s.tables ++ [t], free := s.free + 1 }).record ctx d.id stOk (id.setWidth 64))
/-- TABLE_DESTROY: ST_TABLE_BUSY unless the table is STABLE. -/
def execTableDestroy (ctx : CtxId) (seq : W32) (s : State) : Out :=
  .next (
    match startable s ctx seq 6 with
    | none => s
    | some (x, d) =>
      if bits (d.words.getD 1 0) 56 8 ≠ 2 ∨ leaderUp s (lowCore s x.part) = false then s
      else
        let id : W32 := (d.words.getD 1 0).setWidth 32
        if s.tables.any (fun t => t.id == id && t.ctx == ctx && t.st == .stable) then
          ({ s with tables := s.tables.filter (fun t => !(t.id == id && t.ctx == ctx)) }).record ctx d.id stOk
        else s.record ctx d.id stTableBusy)

end Sys2Proof.Machine
end

