-- ==== Sys2Proof/Machine/KvCache.lean ====
section
/-! DEFINITION. Steps over the key/value cache: allocation, plans, narrowing, migration, spilling ahead, rings, tables (R276-R302,
R388-R390). -/

namespace Sys2Proof.Machine

/-! ## Ends of steps (R390) -/

/-- A step changed. -/
def modStep (s : State) (c : CtxId) (i : DescId) (f : StepRun → StepRun) : State :=
  { s with sched := { s.sched with steps := updWhere (fun r => r.ctx == c && r.seq == i) f s.sched.steps } }
/-- Sequences of a step that still have work in it. -/
def StepRun.active (r : StepRun) : List (W32 × DescId) := r.batch.filter (fun b => !(r.gone.contains b.1))
/-- The record of a sequence of a step: the step's first failure, or the sequence's own status, or ST_OK. -/
def stepRecord (r : StepRun) (s : State) (b : W32 × DescId) : State :=
  match s.seq? r.ctx b.1 with
  | some y =>
    let st := match r.failed with
      | some f => f.1
      | none => y.own
    let s := s.record r.ctx b.2 st (b.1.setWidth 64) (BitVec.ofNat 32 y.narrowPages)
      (if st = stRingAbort then BitVec.ofNat 32 y.passNo else 0) 0 r.poison
    s.modSeq r.ctx b.1 (fun y => { y with own := 0 })
  | none => s.record r.ctx b.2 (match r.failed with | some f => f.1 | none => stOk) (b.1.setWidth 64)
/-- A step completes once its last phase was handed out and every work item has completed, or no sequence is left in it. -/
def settleStep (s : State) (c : CtxId) (i : DescId) : State :=
  match s.sched.steps.find? (fun r => r.ctx == c && r.seq == i) with
  | none => s
  | some r =>
    if r.toAlloc.isEmpty = false ∨ r.openItems.any (fun o => o.2.2 != 0) ∨ (r.layer < r.layers ∧ r.active.isEmpty = false) then s
    else
      let s := r.active.foldl (stepRecord r) s
      { s with sched := { s.sched with steps := s.sched.steps.filter (fun x => !(x.ctx == c && x.seq == i)) } }

/-! ## Allocation at the start of a step (R280, R294) -/

/-- Streams of a context. -/
def streams (k : KvCfg) : List Nat := List.range (k.layers * k.kvHeads)
/-- The pages a sequence needs now: one for each stream whose tail is full or absent. -/
def needed (s : State) (k : KvCfg) (q : Seq) : List PageKey :=
  let ps := s.seqPages q.ctx q.seqId
  (streams k).filterMap (fun x =>
    match tailOf ps x with
    | none => some { ctx := q.ctx, seqId := q.seqId, stream := x, page := 0 }
    | some t => if t.count < 256 then none else some { t.key with page := t.key.page + 1 })
/-- Allocates every needed page; the count of those it could not place. -/
def allocAll (s : State) (k : KvCfg) (pool : Region) (q : Seq) : State × Nat :=
  (needed s k q).foldl (fun (acc : State × Nat) key =>
    if 1024 ≤ key.page then (acc.1, acc.2 + 1)
    else match newPage acc.1 k pool q key with
      | some t => (t, acc.2)
      | none => (acc.1, acc.2 + 1)) (s, 0)
/-- Whether a core lies in a placement set. -/
def Seq.places (q : Seq) (c : CoreId) : Bool := decide (q.firstCore ≤ c.val) && decide (c.val < q.firstCore + q.coreCount)
/-- A sequence leaves the list of those to be given pages. -/
def StepRun.settled (id : W32) (r : StepRun) : StepRun := { r with toAlloc := r.toAlloc.filter (· != id) }
/-- The allocation succeeded: a waiting sequence is ACTIVE and joins the batch with its withheld token. -/
def allocDone (s : State) (r : StepRun) (q : Seq) : State :=
  let s := s.modSeq q.ctx q.seqId (fun y => { y with
    st := .active, withheld := none, allocSince := none, waitLogged := false, expired := false, lastStep := r.stepNo })
  modStep s r.ctx r.seq (fun r =>
    let r := r.settled q.seqId
    match q.withheld with
    | some i => { r with batch := r.batch ++ [(q.seqId, i)], rows := r.rows ++ [(q.seqId, r.rows.length)] }
    | none => r)
/-- The allocation failed for this step (Table 10.9, steps 4 and 7). -/
def allocShort (s : State) (r : StepRun) (k : KvCfg) (q : Seq) (short victims : Nat) : State :=
  let src := srcTs (towerOf (Fin.ofNat 512 q.firstCore))
  let own : Owner := some (q.ctx, q.part)
  let desc := ((r.batch.find? (fun b => b.1 == q.seqId)).map (·.2)).getD r.seq
  let s := modStep s r.ctx r.seq (fun r => { r.settled q.seqId with gone := if q.st = .pageWait then r.gone else r.gone ++ [q.seqId] })
  let s := s.modSeq q.ctx q.seqId (fun y => { y with allocSince := none })
  if q.st = .pageWait then
    if q.waitSince + k.waitTimeout.toNat * 1000000 ≤ s.now then s.modSeq q.ctx q.seqId (fun y => { y with expired := true }) else s
  else if k.waitTimeout = 0 then
    (s.record q.ctx desc stKvExhausted (q.seqId.setWidth 64)).log evKvExhausted src (locSeq q.ctx q.seqId) 0 own [0]
  else
    let s := s.modSeq q.ctx q.seqId (fun y => { y with st := .pageWait, waitSince := s.now, waitLogged := true, withheld := some desc })
    s.log evKvPageWait src (locSeq q.ctx q.seqId) 0 own [w64 short, w64 victims]
/-- Sequences that come before another at a step start: those in PAGE_WAIT, in their order, whose scheduler runs. -/
def allocTurn (s : State) (r : StepRun) (q : Seq) : Bool :=
  let retries := r.toAlloc.filter (fun id => match s.seq? r.ctx id with
    | some y => y.st == .pageWait && leaderUp s y.firstCore
    | none => false)
  match retries with
  | [] => true
  | id :: _ => id == q.seqId
/-- PAGE_ALLOCATE. -/
def execPageAllocate (ctx : CtxId) (seqId : W32) (s : State) : Out :=
  .next (
    match s.sched.steps.find? (fun r => r.ctx == ctx && r.toAlloc.contains seqId) with
    | none => s
    | some r => match s.seq? ctx seqId, s.kvOf ctx with
      | some q, some (k, pool) =>
        if leaderUp s q.firstCore = false ∨ allocTurn s r q = false then s
        else if q.st = .ending then
          settleStep (modStep s ctx r.seq (fun r => { r.settled seqId with gone := r.gone ++ [seqId] })) ctx r.seq
        else
          let t := allocAll s k pool q
          if t.2 = 0 then allocDone t.1 r q
          else
            let freed := releaseReservations s ctx q.places
            let u := allocAll freed k pool q
            if u.2 = 0 then allocDone u.1 r q
            else match q.allocSince with
              | none =>
                let vs := (freed.victims q.part q.priority q.places).take u.2
                if vs.isEmpty then settleStep (allocShort freed r k q u.2 0) ctx r.seq
                else
                  let s := vs.foldl startSpill freed
                  s.modSeq ctx seqId (fun y => { y with allocSince := some s.now })
              | some since =>
                let busy := s.pages.any (fun p => p.st == .spilling && q.places p.core)
                if busy ∧ s.now < since + 1000000 then s
                else settleStep (allocShort freed r k q u.2 (s.pages.filter (fun p => p.st == .spilling && q.places p.core)).length) ctx r.seq
      | _, _ => settleStep (modStep s ctx r.seq (fun r => { r.settled seqId with gone := r.gone ++ [seqId] })) ctx r.seq)
/-- KV_WAIT_TIMEOUT: a retry failed at the first step start after the timeout. -/
def execKvWaitTimeout (ctx : CtxId) (seqId : W32) (s : State) : Out :=
  .next (
    match s.seq? ctx seqId with
    | some q =>
      if q.expired = false ∨ q.st ≠ .pageWait ∨ leaderUp s q.firstCore = false then s
      else
        let s := match q.withheld with
          | some i => s.record ctx i stKvExhausted (seqId.setWidth 64)
          | none => s
        let s := s.modSeq ctx seqId (fun y => { y with st := .active, withheld := none, expired := false, waitLogged := false })
        s.log evKvExhausted (srcTs (towerOf (Fin.ofNat 512 q.firstCore))) (locSeq ctx seqId) 0 (some (ctx, q.part)) [w64 (s.now - q.waitSince)]
    | none => s)
/-- TAIL_COUNT_RAISE: the holder's work item completed with ST_OK. -/
def execTailCountRaise (k : PageKey) (s : State) : Out :=
  .next (
    match s.page? k with
    | some p =>
      if p.tailDue = false ∨ s.tsUp p.core = false ∨ 256 ≤ p.count ∨ p.st = .lost then s
      else
        let s := s.modPage k (fun p => { p with count := p.count + 1, gen := p.gen + 1, tailDue := false })
        if k.stream = 0 then s.modSeq k.ctx k.seqId (fun y => { y with tokens := y.tokens + 1 }) else s
    | none => s)

/-! ## Copies of frames (R276, R279, R301) -/

/-- The blocks of a local range, each with its bytes and whether it is poisoned. -/
def localBlocks (s : State) (c : CoreId) (u : UnitId) (t n : Nat) : State × List (List Byte × Bool) :=
  (List.range n).foldl (fun (acc : State × List (List Byte × Bool)) i =>
    let r := (acc.1).ctlRead c (localCoord u (t + 32 * i))
    (r.1, acc.2 ++ [(natLe 32 r.2.data.toNat, r.2.poison)])) (s, [])
/-- The rows of one part of a frame in another format: row bytes, row scale bytes, and whether the row comes from poison. -/
def narrowPart (draw old new : Nat) (rows : List (List Byte × Bool)) (scales : List (List Byte × Bool)) : List (List Byte × List Byte × Bool) :=
  (List.range 256).map (fun r =>
    let w := kvBits old
    let first := 16 * w * r
    let es := ((rows.drop (first / 32)).take (16 * w / 32)).flatMap (·.1)
    let bad := ((rows.drop (first / 32)).take (16 * w / 32)).any (·.2) || ((scales.drop (r / 16)).take 1).any (·.2)
    let sc := leNat ((((scales.drop (r / 16)).take 1).flatMap (·.1)).drop (2 * (r % 16)) |>.take 2)
    let vs := (kvValues w sc (unpackBits w 128 es)).map toF32
    let out := (convert 1 (7 + new) false false 0 (fun i => Config.draw (draw + 128 * r + i)) 128 (vs.flatMap (fun v => natLe 4 v.toNat))).out
    let n := 16 * kvBits new
    (out.take n, (out.drop (up32 n)).take 2, bad))
/-- Commits the narrowing of a page at a plan build: its rows in the new frame, when its generation is unchanged. -/
def commitNarrow (cfg : KvCfg) (s : State) (p : Page) : State :=
  match p.narrow, s.seq? p.key.ctx p.key.seqId with
  | some (row, kf, vf, gen), some q =>
    if p.gen ≠ gen ∨ p.st ≠ .resident then s.modPage p.key (fun p => { p with narrow := none })
    else if p.pins ≠ 0 ∨ localHeld s p.core p.unit then s
    else
      let k := kvBits p.kfmt
      let v := kvBits p.vfmt
      let b := localBlocks s p.core p.unit (4096 * p.row) (128 * (k + v) + 32)
      let ks := narrowPart b.1.free p.kfmt kf (b.2.take (128 * k)) (b.2.drop (128 * (k + v)))
      let vs := narrowPart (b.1.free + 32768) p.vfmt vf ((b.2.drop (128 * k)).take (128 * v)) (b.2.drop (128 * (k + v) + 16))
      let k' := kvBits kf
      let v' := kvBits vf
      let bs := ks.flatMap (·.1) ++ vs.flatMap (·.1) ++ ks.flatMap (fun x => x.2.1) ++ vs.flatMap (fun x => x.2.1)
      let rowBad (l : List (List Byte × List Byte × Bool)) (w i : Nat) : Bool :=
        (List.range 256).any (fun r => decide (16 * w * r < 32 * (i + 1)) && decide (32 * i < 16 * w * (r + 1)) && (l.getD r ([], [], false)).2.2)
      let bad (i : Nat) : Bool :=
        if i < 128 * k' then rowBad ks k' i
        else if i < 128 * (k' + v') then rowBad vs v' (i - 128 * k')
        else
          let j := i - 128 * (k' + v')
          (List.range 16).any (fun r => ((if j < 16 then ks else vs).getD (16 * (j % 16) + r) ([], [], false)).2.2)
      let s := localWrite (b.1.drew 65536) p.core p.unit (4096 * row) bs bad
      let p' : Page := { p with row := row, kfmt := kf, vfmt := vf, gen := p.gen + 1, clean := false, slot := 0, narrow := none }
      putHeader (s.modPage p.key (fun _ => p')) cfg q.firstPos p'
  | _, _ => s
/-- Narrowings of a context at a plan build; commands with no page left complete. -/
def commitNarrows (s : State) (c : CtxId) (cfg : KvCfg) : State :=
  let s := (s.pages.filter (fun p => p.key.ctx == c && p.narrow.isSome)).foldl (commitNarrow cfg) s
  (s.seqs.filter (fun q => q.ctx == c && q.narrowDesc.isSome)).foldl (fun (s : State) (q : Seq) =>
    if (s.seqPages c q.seqId).any (fun p => p.narrow.isSome) then s
    else match q.narrowDesc with
      | some i => (s.record c i stOk).modSeq c q.seqId (fun y => { y with narrowDesc := none })
      | none => s) s

/-! ## Plans (R284, R290, R291, R389, R390) -/

/-- A plan record (Table 10.8), the pages it names, its holder and its bucket. -/
structure PlanRec where
  holder : CoreId
  bucket : Nat
  keys : List PageKey
  unit : UnitId
  row : Nat
  lastRows : Nat
  kfmt : Nat
  vfmt : Nat
  far : Bool
  below : Nat
  firstPos : Nat
  batchRow : Nat
  head : Nat
  slot : Nat
  partialIx : Nat
  area : Nat
  last : Bool
  deriving DecidableEq, Repr
/-- The bucket of a number of pages per stream. -/
def bucketOf (p : Nat) : Nat :=
  if p ≤ 1 then 0 else if p ≤ 4 then 1 else if p ≤ 16 then 2 else if p ≤ 64 then 3 else if p ≤ 256 then 4 else if p ≤ 1024 then 5 else 6
/-- Whether a page is planned in its frame. -/
def inFrame (p : Page) : Bool := p.st == .resident || p.st == .spilling
/-- Whether a page follows another in one record: one extent, one unit, one format, the next frame. -/
def follows (e : Nat) (a b : Page) : Bool :=
  inFrame a && inFrame b && a.core == b.core && a.unit == b.unit && a.kfmt == b.kfmt && a.vfmt == b.vfmt && b.key.page == a.key.page + 1
  && a.key.page / e == b.key.page / e && b.row == a.row + frameRows a.kfmt a.vfmt
/-- The pages of a stream in runs, each one record. -/
def runsOf (e : Nat) : List Page → List (List Page)
  | [] => []
  | p :: t => match runsOf e t with
    | (q :: r) :: rest => if follows e p q then (p :: q :: r) :: rest else [p] :: (q :: r) :: rest
    | rest => [p] :: rest
/-- Whether a page lies below a floor. -/
def belowFloor (k : KvCfg) (p : Page) : Bool :=
  (k.kfloor != 0 && decide (k.kfloor < p.kfmt)) || (k.vfloor != 0 && decide (k.vfloor < p.vfmt))
/-- The records of a stream of a sequence. -/
def streamRecs (s : State) (k : KvCfg) (q : Seq) (row head stream : Nat) : List PlanRec :=
  let ps := sortBy (fun a b => decide (a.key.page < b.key.page))
    ((s.seqPages q.ctx q.seqId).filter (fun p => p.key.stream == stream && p.st != .lost && p.st != .empty && p.st != .spread))
  let last := ps.getLast?.map (·.key.page)
  let bucket := bucketOf (ps.length * (if q.ring then q.members.toNat else 1))
  (runsOf k.extent ps).filterMap (fun run =>
    match run, run.getLast? with
    | p :: _, some z => some {
        holder := p.core, bucket := bucket, keys := run.map (·.key), unit := if inFrame p then p.unit else 0,
        row := if inFrame p then p.row else 0, lastRows := Nat.min 256 (if some z.key.page = last then z.count + 1 else z.count),
        kfmt := p.kfmt, vfmt := p.vfmt, far := !(inFrame p), below := (run.filter (belowFloor k)).length,
        firstPos := (q.firstPos.toNat + 256 * p.key.page) % 2 ^ 32, batchRow := row, head := head,
        slot := if inFrame p then 0 else 2 * 2 ^ 60 + p.slot, partialIx := 0, area := 0, last := false }
    | _, _ => none)
/-- The records of a layer of a step, over its sequences and heads, with their partial slots. -/
def layerRecs (s : State) (k : KvCfg) (r : StepRun) (layer : Nat) : List PlanRec :=
  let all := r.active.flatMap (fun b =>
    match s.seq? r.ctx b.1 with
    | some q => (List.range k.kvHeads).flatMap (fun g =>
        streamRecs s k q (((r.rows.find? (fun x => x.1 == b.1)).map (·.2)).getD 0) g (layer * k.kvHeads + g))
    | none => [])
  let slots := (all.map (fun x => (x.batchRow, x.head, x.holder.val))).eraseDups
  all.map (fun x => { x with partialIx := slots.idxOf (x.batchRow, x.head, x.holder.val) })
/-- Marks result areas in turn on each unit, and the last record of each stream. -/
def markRecs : List Nat → List PlanRec → List PlanRec
  | _, [] => []
  | used, x :: t =>
    { x with area := used.count x.unit.val % 2, last := !(t.any (fun y => y.batchRow == x.batchRow && y.head == x.head)) }
      :: markRecs (if x.far then used else x.unit.val :: used) t
/-- The records of one holder, longest bucket first. -/
def holderRecs (rs : List PlanRec) (c : CoreId) : List PlanRec :=
  markRecs [] (sortBy (fun a b => decide (b.bucket < a.bucket)) (rs.filter (fun x => x.holder == c)))
/-- The words of a record. -/
def recWordsOf (k : KvCfg) (x : PlanRec) : List W64 :=
  [w64 (x.unit.val * 2 ^ 58 + x.row * 2 ^ 46 + x.keys.length * 2 ^ 39 + x.lastRows * 2 ^ 30 + x.kfmt * 2 ^ 27 + x.vfmt * 2 ^ 24
        + k.qPerKv * 2 ^ 20 + x.area * 2 ^ 19 + (if x.far then 2 ^ 18 else 0) + (if x.below = 0 then 0 else 2 ^ 17)
        + (if x.last then 2 ^ 16 else 0)),
   w64 (x.firstPos * 2 ^ 32 + x.batchRow * 2 ^ 16 + x.head * 2 ^ 8), w64 x.slot, w64 (x.partialIx * 2 ^ 32)]
/-- Streams of a layer with more than one holder: they need the confluence step (R285). -/
def mergedStreams (rs : List PlanRec) : List (Nat × Nat × Nat) :=
  let all := (rs.map (fun x => (x.bucket, x.batchRow, x.head))).eraseDups
  sortBy (fun a b => decide (b.1 < a.1)) (all.filter (fun t =>
    decide (1 < ((rs.filter (fun x => x.batchRow == t.2.1 && x.head == t.2.2)).map (·.holder)).eraseDups.length)))
/-- Bytes up to the next multiple of 64. -/
def up64 (n : Nat) : Nat := (n + 63) / 64 * 64
/-- Bytes of the work area that a phase of a layer takes. -/
def phaseNeed (rs : List PlanRec) (f : PhaseP) : Nat :=
  match f.kind with
  | 1 => (((rs.map (·.holder)).eraseDups).map (fun c => up64 (32 * (rs.filter (fun x => x.holder == c)).length) + 64)).sum
  | 2 => 8 * (mergedStreams rs).length + 128 * f.coreCount
  | _ => 0
/-- Bytes of the work area that a step takes. -/
def stepNeed (s : State) (k : KvCfg) (r : StepRun) (plan : PlanP) : Nat :=
  ((List.range plan.layers).map (fun l =>
    let rs := layerRecs s k r l
    (plan.phases.map (phaseNeed rs)).sum)).sum
/-- A work item of a phase. -/
def stepItem (x : Ctx) (r : StepRun) (f : PhaseP) (layer ph core : Nat) (arg : W64) (argLen : Nat) (pages tails : List PageKey) (order : Nat) :
    WorkItem where
  workItem := BitVec.ofNat 32 order
  context := x.num
  partition := x.part
  priority := f.priority
  preemptible := f.preemptible
  progBase := f.progBase
  progLen := f.progLen
  entry := f.entry
  argAddr := arg
  bindCount := BitVec.ofNat 16 f.bindCount
  waitLimit := f.waitLimit
  bindAddr := f.bindAddr
  tag := 0
  argLen := BitVec.ofNat 16 argLen
  seq := r.seq.1
  firstCore := core
  coreCount := 1
  builderOf := none
  stepPhase := some (r.seq.1, layer, ph)
  movable := f.movable
  eqFirst := f.firstCore
  eqCount := f.coreCount
  table := none
  fetchOrder := order
  peer := r.seq.2
  pages := pages
  tails := tails
/-- Writes words into the work area. -/
def putWords (s : State) (a : Nat) (ws : List W64) : State := s.viewWrite 0 1 a (ws.flatMap (fun w => natLe 8 w.toNat)) false
/-- The argument base of a layer. -/
def argAt (f : PhaseP) (layer : Nat) : W64 := f.argBase + w64 (layer * f.strideLayer)
/-- Hands out the attention work items of a layer, one for each holder core. -/
def attention (x : Ctx) (k : KvCfg) (r : StepRun) (f : PhaseP) (ph : Nat) (area : Nat) (rs : List PlanRec) (s : State) :
    State × List WorkItem × Nat :=
  ((rs.map (·.holder)).eraseDups).foldl (fun (acc : State × List WorkItem × Nat) c =>
    let mine := holderRecs rs c
    let s := acc.1
    let at_ := area + acc.2.2
    let args := at_ + up64 (32 * mine.length)
    let s := putWords s at_ (mine.flatMap (recWordsOf k))
    let w (i : Nat) : W64 := Config.planWord (s.free + i)
    let s := putWords s args [w64 (2 ^ 60 + at_), w64 mine.length, w 0, w 1, w 2, w 3, argAt f r.layer, w64 r.layer]
    let keys := mine.flatMap (·.keys)
    let s := keys.foldl (fun s key => s.modPage key (fun p => { p with pins := p.pins + 1 })) (s.drew 4)
    let tails := keys.filter (fun key => match tailOf (s.seqPages key.ctx key.seqId) key.stream with | some t => t.key == key | none => false)
    (s, acc.2.1 ++ [stepItem x r f r.layer ph c.val (w64 (2 ^ 60 + args)) 64 keys tails (s.sched.order + acc.2.1.length)],
     acc.2.2 + up64 (32 * mine.length) + 64)) (s, [], 0)
/-- Hands out the confluence work items of a layer: each merged stream goes to a core of the set. -/
def confluence (x : Ctx) (r : StepRun) (f : PhaseP) (ph : Nat) (area : Nat) (rs : List PlanRec) (s : State) : State × List WorkItem × Nat :=
  let ts := (mergedStreams rs).zipIdx.map (fun t => Config.choice (s.free + t.2) % f.coreCount)
  let s := s.drew ts.length
  (List.range f.coreCount).foldl (fun (acc : State × List WorkItem × Nat) i =>
    let n := ts.count i
    if n = 0 then acc
    else
      let s := acc.1
      let at_ := area + acc.2.2
      let args := at_ + up64 (8 * n)
      let w (j : Nat) : W64 := Config.planWord (s.free + j)
      let s := putWords s at_ ((List.range n).map (fun j => w (3 + j)))
      let s := putWords s args [w64 (2 ^ 60 + at_), w64 n, w 0, w 1, argAt f r.layer, w 2]
      let s := s.drew (3 + n)
      (s, acc.2.1 ++ [stepItem x r f r.layer ph (f.firstCore + i) (w64 (2 ^ 60 + args)) 48 [] [] (s.sched.order + acc.2.1.length)],
       acc.2.2 + up64 (8 * n) + 64)) (s, [], 0)
/-- The phase before the next one: its layer and number. -/
def beforePhase (r : StepRun) (phases : Nat) : Option (Nat × Nat) :=
  if r.phase ≠ 0 then some (r.layer, r.phase - 1) else if r.layer ≠ 0 then some (r.layer - 1, phases - 1) else none
/-- Whether the next phase may enter core queues (R390). -/
def phaseReady (s : State) (r : StepRun) (f : PhaseP) (phases : Nat) : Bool :=
  match beforePhase r phases with
  | none => true
  | some b =>
    !(s.sched.waiting.any (fun i => i.context == r.ctx && i.peer == r.seq.2 && i.stepPhase == some (r.seq.1, b.1, b.2)))
    && (!f.barrier || !(r.openItems.any (fun o => o.1 == b.1 && o.2.1 == b.2 && o.2.2 != 0)))
/-- A step fails as a whole before any work item is handed out. -/
def refuseStep (s : State) (r : StepRun) : State :=
  let s := r.active.foldl (fun s b => s.record r.ctx b.2 stDescInvalid (b.1.setWidth 64)) s
  { s with sched := { s.sched with steps := s.sched.steps.filter (fun x => !(x.ctx == r.ctx && x.seq == r.seq)) } }
/-- LAYER_PLAN_BUILD: the next phase of a step is built and its work items wait for core queues. A page with 255 pins waits. -/
def execLayerPlanBuild (ctx : CtxId) (step : W32) (s : State) : Out :=
  .next (
    match s.sched.steps.find? (fun r => r.ctx == ctx && r.stepNo == step && r.toAlloc.isEmpty && decide (r.layer < r.layers)), s.ctx? ctx,
          s.kvOf ctx with
    | some r, some x, some (k, _) =>
      if leaderUp s (lowCore s x.part) = false then s
      else
        let p := readPlan s x.part r.planAddr
        match p.2 with
        | none => if r.layer = 0 ∧ r.phase = 0 then refuseStep p.1 r else s
        | some plan =>
          match plan.phases[r.phase]? with
          | none => s
          | some f =>
            if phaseReady s r f plan.phases.length = false then s
            else
              let start := r.layer == 0 && r.phase == 0
              let s := if start then commitNarrows p.1 ctx k else p.1
              let size := 4096 * plan.workSize
              let rs := if f.kind = 0 then [] else layerRecs s k r r.layer
              if (start && decide (size < stepNeed s k r plan)) || decide (size < r.areaUsed + phaseNeed rs f) then refuseStep s r
              else if f.kind = 1 ∧ rs.any (fun z => z.keys.any (fun key => (s.page? key).any (fun p => p.pins == 255))) then s
              else
                let area := bits plan.workArea 0 60 + r.areaUsed
                let t : State × List WorkItem × Nat :=
                  if f.kind = 1 then attention x k r f r.phase area rs s
                  else if f.kind = 2 then confluence x r f r.phase area rs s
                  else (s, (List.range f.coreCount).map (fun i =>
                    stepItem x r f r.layer r.phase (f.firstCore + i) (argAt f r.layer + w64 (i * f.strideCore)) f.argLen [] []
                      (s.sched.order + i)), 0)
                let s := t.1
                let below (id : W32) : Nat := ((rs.filter (fun z => z.keys.any (fun key => key.seqId == id))).map (·.below)).sum
                let s := if f.kind = 1 then r.active.foldl (fun (s : State) b => s.modSeq ctx b.1 (fun y => { y with
                    narrowPages := (if r.layer = 0 then 0 else y.narrowPages) + below b.1 })) s else s
                let s := { s with sched := { s.sched with
                  waiting := s.sched.waiting ++ t.2.1, order := s.sched.order + t.2.1.length } }
                let wrap := r.phase + 1 == plan.phases.length
                let next (r : StepRun) : StepRun := { r with
                  openItems := r.openItems ++ [(r.layer, r.phase, t.2.1.length)], areaUsed := r.areaUsed + t.2.2,
                  layer := if wrap then r.layer + 1 else r.layer, phase := if wrap then 0 else r.phase + 1 }
                settleStep (modStep s ctx r.seq next) ctx r.seq
    | _, _, _ => s)

/-! ## Migration (R279, Table 10.7) -/

/-- Why a page's frame is unusable: its unit is fenced, rows were moved out of the pair, its tower's scheduler is held down (R400),
its tower is fenced (R318). -/
def unusable (s : State) (p : Page) : Option Nat :=
  if (s.unit p.core p.unit).fencedU then some 0
  else if (List.range (frameRows p.kfmt p.vfmt)).any (fun i => !(s.rowStays p.core p.unit (p.row + i))) then some 1
  else if (s.proc (2 + (towerOf p.core).val)).st = .heldDown then some 2
  else if s.fencedTowers.contains (towerOf p.core).val then some 3
  else none
/-- Whether some scheduler serves a page: its tower's, or another that took over from a held-down one. -/
def served (s : State) (p : Page) : Bool :=
  s.tsUp p.core || (((s.proc (2 + (towerOf p.core).val)).st == .heldDown || s.fencedTowers.contains (towerOf p.core).val)
    && (List.range 8).any (fun t => s.procUp (2 + t)))
/-- A frame for a migrated page: another unit of its slice, or a slice next in rotation. -/
def migrateTo (s : State) (k : KvCfg) (pool : Region) (q : Seq) (p : Page) : Option (CoreId × UnitId × Nat) :=
  let rows := frameRows p.kfmt p.vfmt
  let cores := p.core :: (rotation q.firstCore (Nat.max 1 q.coreCount) (p.core.val + 1 - q.firstCore)).filter (fun c => c != p.core)
  let ok := cores.filter (fun c => s.procUp (2 + (towerOf c).val))
  (ok.findSome? (fun c => (s.pickUnit k pool p.key rows c (if c = p.core then [p.unit] else [])).map (fun u => (c, u)))).bind (fun cu =>
    (bestRun rows 1 (s.unitRuns pool cu.1 cu.2)).map (fun r => (cu.1, cu.2, r.1)))
/-- PAGE_MIGRATE: a frame is taken and the generation read; the copy follows. -/
def execPageMigrate (k : PageKey) (s : State) : Out :=
  .next (
    match s.page? k, s.seq? k.ctx k.seqId, s.kvOf k.ctx with
    | some p, some q, some (cfg, pool) =>
      if p.st ≠ .resident ∨ p.migrate.isSome ∨ (unusable s p).isNone ∨ served s p = false then s
      else match migrateTo s cfg pool q p with
        | some (c, u, r) => s.modPage k (fun p => { p with migrate := some (c, u, r, p.gen, s.now) })
        | none => s
    | _, _, _ => s)
/-- The entry takes its new location; the old frame's rows are unusable. -/
def migrated (s : State) (p : Page) (c : CoreId) (u : UnitId) (r : Nat) : State :=
  let cause := (unusable s p).getD 0
  let n := frameRows p.kfmt p.vfmt
  let bad := (List.range n).map (fun i => (p.core.val, p.unit.val, p.row + i))
  let move (p : Page) : Page := { p with core := c, unit := u, row := r, gen := p.gen + 1, migrate := none }
  let s := { s.modPage p.key move with badRows := s.badRows ++ bad }
  s.log evKvMigrated (srcTs (towerOf c)) (locSeq p.key.ctx p.key.seqId) 0 (s.pageOwner p.key)
    [locUnit p.core p.unit, w64 p.row, locUnit c u, w64 r, w64 cause]
/-- PAGE_MIGRATE_COMMIT: the copy with fresh check words, the header's check, and the switch. -/
def execPageMigrateCommit (k : PageKey) (s : State) : Out :=
  .next (
    match s.page? k, s.kvOf k.ctx with
    | some p, some (cfg, _) => (match p.migrate with
      | none => s
      | some (c, u, r, gen, _) =>
        if served s p = false ∨ localHeld s p.core p.unit ∨ localHeld s c u then s
        else if p.gen ≠ gen then s.modPage k (fun p => { p with migrate := none })
        else if p.pins ≠ 0 then s
        else
          let n := 128 * frameRows p.kfmt p.vfmt
          let part := match s.seq? k.ctx k.seqId with | some q => q.part.val | none => 0
          let s := (s.charge p.core part (8 + (localCoord p.unit 0).ch.val) (500 * n)).charge c part (8 + (localCoord u 0).ch.val) (500 * n)
          let b := localBlocks s p.core p.unit (4096 * p.row) n
          let s := localWrite b.1 c u (4096 * r) (b.2.flatMap (·.1)) (fun i => (b.2.getD i ([], false)).2)
          let h := leWords (((b.2.flatMap (·.1)).drop (headerAt p.kfmt p.vfmt)).take 24) 3
          if headerMatches cfg.kvHeads p h then migrated s p c u r else losePages s 0 (fun x => x.key == k))
    | _, _ => s)
/-- MIGRATION_PIN_TIMEOUT. -/
def execMigrationPinTimeout (k : PageKey) (s : State) : Out :=
  .next (
    match s.page? k with
    | some p => (match p.migrate with
      | some (_, _, _, _, t) => if 0 < p.pins ∧ t + 1000000 ≤ s.now then s.modPage k (fun p => { p with migrate := none }) else s
      | none => s)
    | none => s)

/-! ## Spilling ahead (R292) -/

/-- LOW_WATER_SPILL: a slice short of free frames gives up reservations, then spills victims ahead of need. -/
def execLowWaterSpill (ctx : CtxId) (c : CoreId) (s : State) : Out :=
  .next (
    match s.kvOf ctx, s.ctx? ctx with
    | some (k, pool), some x =>
      let n := frameRows k.kfmt k.vfmt
      if s.tsUp c = false ∨ k.lowWater ≤ s.freeFrames pool c n then s
      else
        let s := releaseReservations s ctx (· == c)
        let free := s.freeFrames pool c n + (s.pages.filter (fun p => p.st == .spilling && p.core == c)).length
        ((s.victims x.part 0xFF (· == c)).take (k.lowWater - free)).foldl startSpill s
    | _, _ => s)

/-! ## Rings (R297, R298) -/

/-- RING_BLOCK_LANDED: a pass's block has landed; once the holders have finished the block before, the next pass begins. -/
def execRingBlockLanded (ctx : CtxId) (seqId : W32) (s : State) : Out :=
  .next (
    match s.seq? ctx seqId with
    | some q =>
      if q.ring = false ∨ s.scheduled ctx seqId = false then s
      else if (s.seqPages ctx seqId).all (fun p => p.pins == 0) then
        s.modSeq ctx seqId (fun y => { y with landed := false, passNo := (y.passNo + 1) % Nat.max 1 y.members.toNat })
      else s.modSeq ctx seqId (fun y => { y with landed := true })
    | none => s)
/-- The ring step of a ring sequence ends with ST_RING_ABORT; work items of its step see flag 31 (R298, R386). -/
def ringAbort (s : State) (q : Seq) : State :=
  match s.sched.steps.find? (fun r => r.ctx == q.ctx && r.active.any (fun b => b.1 == q.seqId)) with
  | none => s
  | some r =>
    let mine (i : WorkItem) : Bool := i.context == q.ctx && i.peer == r.seq.2 && (match i.stepPhase with | some p => p.1 == r.seq.1 | none => false)
    let flag (k : Core) : Core := { k with flags := if k.item.any mine then k.flags ||| 0x80000000 else k.flags }
    let s := { s with cores := s.cores.map (fun (k : Nat × Core) => (k.1, flag k.2)) }
    let desc := ((r.batch.find? (fun b => b.1 == q.seqId)).map (·.2)).getD r.seq
    let s := s.record q.ctx desc stRingAbort (q.seqId.setWidth 64) (BitVec.ofNat 32 q.narrowPages) (BitVec.ofNat 32 q.passNo)
    let s := s.log evRingAbort (srcTs (towerOf (Fin.ofNat 512 q.firstCore))) (locSeq q.ctx q.seqId) 0 (some (q.ctx, q.part))
      [q.ringId.setWidth 64, q.member.setWidth 64, w64 q.passNo]
    let s := s.modSeq q.ctx q.seqId (fun y => { y with passNo := 0, landed := false })
    settleStep (modStep s q.ctx r.seq (fun r => { r with gone := r.gone ++ [q.seqId] })) q.ctx r.seq

/-! ## Tables (R300) -/

/-- Work items given a version of a table that have not completed. -/
def tableUsers (s : State) (id version : W32) : Nat :=
  let mine (i : WorkItem) : Bool := i.table == some (id, version)
  (s.sched.outcomes.filter (fun o => mine o.item)).length
  + (s.cores.map (fun k => (k.2.localQ.filter mine).length + (if k.2.item.any mine then 1 else 0)
      + (if k.2.saved.any (fun v => mine v.item) then 1 else 0))).sum
/-- TABLE_BUILDER_DONE: the last builder completed with ST_OK and the table commits, or one failed and the rebuild is off. -/
def execTableBuilderDone (tableId : W32) (ok : Bool) (s : State) : Out :=
  .next (
    match s.tables.find? (fun t => t.id == tableId) with
    | none => s
    | some t =>
      let low := match s.ctx? t.ctx with | some x => lowCore s x.part | none => 0
      let src := srcTs (towerOf (Fin.ofNat 512 low))
      let put (f : Table → Table) (s : State) : State := { s with tables := updWhere (fun x => x.id == tableId) f s.tables }
      let own : Owner := (s.ctx? t.ctx).map (fun x => (x.num, x.part))
      if t.st ≠ .building ∨ leaderUp s low = false then s
      else if ok ∧ t.builders = 0 ∧ t.failed = false then
        let s := put (fun x => { x with committed := !x.committed, version := x.version + 1, st := .draining,
                                        oldUsers := tableUsers s tableId t.version }) s
        s.log evTableCommit src 0 0 own [tableId.setWidth 64, (t.version + 1).setWidth 64]
      else if ok = false ∧ t.failed then
        (put (fun x => { x with st := .stable, builders := 0, failed := false }) s).log evTableAbort src 0 0 own [tableId.setWidth 64]
      else s)
/-- TABLE_DRAINED. -/
def execTableDrained (tableId : W32) (s : State) : Out :=
  .next (
    { s with tables := updWhere (fun t => t.id == tableId && t.st == .draining && t.oldUsers == 0) (fun t => { t with st := .stable }) s.tables })

end Sys2Proof.Machine
end

