-- ==== Sys2Proof/Machine/Links.lean ====
section
/-! DEFINITION. Burril links: flits, replays, training, lane failure in service (R20, R310-R317), and a loop's relock (R305). -/

namespace Sys2Proof.Machine

/-! ## The grid (R20, R317) -/

/-- The ends of a link (Table 11.7): its forward direction runs from the first to the second. -/
def linkEnds (l : LinkId) : Nat × Nat :=
  [(0, 1), (1, 2), (2, 3), (4, 5), (5, 6), (6, 7), (0, 4), (1, 5), (2, 6), (3, 7), (8, 0), (8, 4), (9, 3), (9, 7)].getD l.val (0, 0)
/-- All links. -/
def allLinks : List LinkId := (List.range 14).map (Fin.ofNat 14)
/-- A link. -/
def State.link (s : State) (l : LinkId) : Link := s.links.getD l.val Link.reset
/-- The state with a link changed. -/
def State.modLink (s : State) (l : LinkId) (f : Link → Link) : State := { s with links := s.links.modify l.val f }
/-- The tower end whose scheduler handles a link: the lower tower number, or the only tower. -/
def linkTower (l : LinkId) : Nat := if (linkEnds l).1 < 8 then (linkEnds l).1 else (linkEnds l).2
/-- Whether a die is an end of a link. -/
def touches (l : LinkId) (d : Nat) : Bool := (linkEnds l).1 == d || (linkEnds l).2 == d
/-- The other end of a link. -/
def farEnd (l : LinkId) (d : Nat) : Nat := if (linkEnds l).1 = d then (linkEnds l).2 else (linkEnds l).1
/-- Links of the route set in force: those that are not dead and touch no fenced tower. -/
def routeSet (s : State) : List LinkId :=
  allLinks.filter (fun l => (s.link l).st != 3 && !(s.fencedTowers.contains (linkEnds l).1) && !(s.fencedTowers.contains (linkEnds l).2))
/-- Dies by their number of links from a destination: level n lists the dies n links away. -/
def levels (ls : List LinkId) : Nat → List Nat → List Nat → List (List Nat)
  | 0, _, _ => []
  | fuel + 1, seen, front =>
    let next := (front.flatMap (fun d => (ls.filter (fun l => touches l d)).map (fun l => farEnd l d))).eraseDups.filter
      (fun d => !(seen.contains d) && !(front.contains d))
    front :: levels ls fuel (seen ++ front) next
/-- Links from a die to a destination. -/
def hops (ls : List LinkId) (dest d : Nat) : Option Nat := (levels ls 10 [] [dest]).findIdx? (fun l => l.contains d)
/-- The link that a die forwards over: minimal; the choice among equals is fixed by the route set. -/
def nextLink (s : State) (d dest : Nat) : Option LinkId :=
  let ls := routeSet s
  match hops ls dest d with
  | some (n + 1) =>
    let ok := ls.filter (fun l => touches l d && hops ls dest (farEnd l d) == some n)
    ok[Config.route d dest % Nat.max 1 ok.length]?
  | _ => none

/-! ## Flits and replay (R310-R312) -/

/-- A direction of a link. -/
def Link.dir (k : Link) (rev : Bool) : LinkDir := if rev then k.rev else k.fwd
/-- A link with a direction changed. -/
def Link.modDir (k : Link) (rev : Bool) (f : LinkDir → LinkDir) : Link := if rev then { k with rev := f k.rev } else { k with fwd := f k.fwd }
/-- The die that receives on a direction. -/
def receiver (l : LinkId) (rev : Bool) : Nat := if rev then (linkEnds l).1 else (linkEnds l).2
/-- A sender keeps a flit in its replay buffer as it sends it. -/
def LinkDir.send (d : LinkDir) (f : Flit) : LinkDir :=
  { d with replay := d.replay ++ [{ f with seqNo := d.sendSeq }], sendSeq := d.sendSeq + 1 }
/-- Flits from the one with a sequence number on; none is listed when it is not held. -/
def flitsFrom (n : BitVec 12) : List Flit → List Flit
  | [] => []
  | f :: t => if f.seqNo = n then f :: t else flitsFrom n t
/-- A sender's replay buffer after an acknowledgement: the flits up to it are gone. -/
def LinkDir.acked (d : LinkDir) (n : BitVec 12) : LinkDir :=
  if d.replay.any (fun f => f.seqNo == n) then { d with replay := (flitsFrom n d.replay).drop 1 } else d
/-- The direction of a link in which a die sends. -/
def sendsRev (l : LinkId) (d : Nat) : Bool := (linkEnds l).2 == d
/-- FLIT_RECEIVE: a flit with a good CRC. The next in sequence is taken: it acknowledges flits of the other direction, returns
credits, and is delivered or forwarded; a flit out of sequence is discarded (R312). A full replay buffer holds it back. -/
def execFlitReceive (l : LinkId) (rev : Bool) (f : Flit) (s : State) : Out :=
  .next (
    let k := s.link l
    let d := k.dir rev
    let here := receiver l rev
    if k.st ≠ 1 ∨ f.seqNo ≠ d.recvSeq then s
    else
      let out := if f.dest.val = here then none else nextLink s here f.dest.val
      let full : Bool := match out with
        | some n => decide (512 ≤ ((s.link n).dir (sendsRev n here)).replay.length)
        | none => f.dest.val != here
      if full then s
      else
        let d := if d.sendSeq = f.seqNo then d.send f else d
        let d := { d with recvSeq := f.seqNo + 1, fails := 0, discarding := false,
                          delivered := if f.dest.val = here then d.delivered ++ [f] else d.delivered }
        let s := s.modLink l (fun k => (k.modDir rev (fun _ => d)).modDir (!rev) (fun x =>
          { x.acked f.ackSeq with credits := x.credits + f.credits.toNat }))
        match out with
        | some n => s.modLink n (fun k => k.modDir (sendsRev n here) (fun x => x.send f))
        | none => s)
/-- FLIT_CRC_ERROR: the receiver discards the flit and every later one; the sender resends from it. The sixteenth failure in a
row triggers diagnosis. -/
def execFlitCrcError (l : LinkId) (rev : Bool) (seqNo : BitVec 12) (s : State) : Out :=
  .next (
    let k := s.link l
    let d := k.dir rev
    if k.st ≠ 1 ∨ seqNo ≠ d.recvSeq then s
    else s.modLink l (fun k => { k.modDir rev (fun x => { x with discarding := true, fails := x.fails + 1, replays := x.replays + 1 }) with
      diagnose := k.diagnose || decide (16 ≤ d.fails + 1) }))

/-! ## Training (R313) -/

/-- Failing data lanes of a half among the lanes that fail training: 0-63 the lanes, 64 SA, 65 SB. -/
def halfFails (failing : List (Fin 66)) (half : Nat) : List Nat :=
  ((failing.map (·.val)).filter (fun n => decide (n < 64) && n / 32 == half)).eraseDups
/-- Whether a half's spare fails. -/
def spareFails (failing : List (Fin 66)) (half : Nat) : Bool := failing.any (fun n => n.val == 64 + half)
/-- Whether a half is dead: two of its lanes fail, its spare counted. -/
def halfDead (failing : List (Fin 66)) (half : Nat) : Bool :=
  decide (2 ≤ (halfFails failing half).length + (if spareFails failing half then 1 else 0))
/-- The lane a half bypasses: its number within the half, 63 none. -/
def oxbow (failing : List (Fin 66)) (half : Nat) : Nat :=
  match halfFails failing half, spareFails failing half with
  | [n], false => n % 32
  | _, _ => 63
/-- The width of a link whose halves are dead or not (Table 11.7). -/
def widthOf (deadA deadB : Bool) : Nat := (if deadB then 1 else 0) + (if deadA then 2 else 0)
/-- A link's record: its index and the lanes concerned. -/
def logLink (s : State) (ev : Ev) (l : LinkId) (lane : Nat) (det : List W64) : State :=
  s.log ev (srcDie (Fin.ofNat 10 (receiver l false))) (locLink l lane false) 0 none (w64 l.val :: det)
/-- The records of a link that forms an oxbow, drops to one half, or dies; each lists the lanes concerned (R319, R446). -/
def logTrained (s : State) (l : LinkId) (old : Link) (lanes : List Nat) : State :=
  let k := s.link l
  let list := w64 lanes.length :: lanes.map w64
  if k.width = 3 then logLink s evLinkDead l (lanes.headD 0) list
  else
    let s := if k.oxA ≠ 63 ∧ k.oxA ≠ old.oxA then logLink s evLinkOxbow l k.oxA [1, w64 k.oxA] else s
    let s := if k.oxB ≠ 63 ∧ k.oxB ≠ old.oxB then logLink s evLinkOxbow l (32 + k.oxB) [1, w64 (32 + k.oxB)] else s
    if k.width ≠ 0 ∧ k.width ≠ old.width then logLink s evLinkHalf l (lanes.headD 0) list else s
/-- A link as training leaves it: a half that died in service stays dead until the next cold start (R315). -/
def Link.trained (k : Link) (failing : List (Fin 66)) (now : Nat) : Link :=
  let deadA := halfDead failing 0 || k.width / 2 == 1
  let deadB := halfDead failing 1 || k.width % 2 == 1
  let w := widthOf deadA deadB
  { k with
    st := (if w = 3 then 3 else 1), width := w, oxA := oxbow failing 0, oxB := oxbow failing 1,
    spareA := spareFails failing 0 || (oxbow failing 0 != 63), spareB := spareFails failing 1 || (oxbow failing 1 != 63),
    named := none, quiesceReq := false, diagnose := false, windowAt := now }
/-- LINK_TRAIN: a link in training tests every lane; both of its dies' loops are locked. -/
def execLinkTrain (l : LinkId) (failing : List (Fin 66)) (s : State) : Out :=
  .next (
    let k := s.link l
    let locked := (s.clk (Fin.ofNat 10 (linkEnds l).1)).locked && (s.clk (Fin.ofNat 10 (linkEnds l).2)).locked
    if k.st ≠ 0 ∨ locked = false then s
    else logTrained (s.modLink l (fun k => k.trained failing s.now)) l k (failing.map (·.val)).eraseDups)

/-! ## Lane failure in service (R314-R316) -/

/-- The lane that holds at least half of a window's line-code errors. -/
def namedLane (errs : List (Fin 66 × Nat)) : Option (Fin 66) :=
  let total := (errs.map (·.2)).sum
  (errs.find? (fun x => decide (0 < x.2) && decide (total ≤ 2 * x.2))).map (·.1)
/-- LINK_REPLAY_WINDOW: the 1 ms window ends, or diagnosis was triggered; the counts start again. -/
def execLinkReplayWindow (l : LinkId) (laneErrs : List (Fin 66 × Nat)) (s : State) : Out :=
  .next (
    let k := s.link l
    if k.st ≠ 1 ∨ (k.diagnose = false ∧ s.now < k.windowAt + 1000000) then s
    else
      let rev := decide (k.fwd.replays < k.rev.replays)
      let n := (k.dir rev).replays
      let bad := k.diagnose || decide (s.err.linkThresh.toNat < n)
      let close (d : LinkDir) : LinkDir := { d with lastReplays := d.replays, replays := 0 }
      let lane := if bad then namedLane laneErrs else none
      let s := s.modLink l (fun k => { k with
        fwd := close k.fwd, rev := close k.rev, windowAt := s.now, diagnose := false,
        named := (if lane.isSome then lane else k.named), quiesceReq := k.quiesceReq || lane.isSome })
      if bad then
        s.log evLinkRetryHigh (srcDie (Fin.ofNat 10 (receiver l rev))) (locLink l ((lane.map (·.val)).getD 0) rev) 0 none
          (w64 l.val :: w64 n :: 66 :: (List.range 66).map (fun i => w64 ((laneErrs.filter (fun x => x.1.val == i)).map (·.2)).sum))
      else s)
/-- Step 4 for a named lane: an oxbow while its half's spare is unused, else the other half alone, else none. -/
def Link.bypass (k : Link) (n : Nat) : Link :=
  let b := n % 66 == 65 || (decide (32 ≤ n) && decide (n < 64))
  let free := !(if b then k.spareB else k.spareA)
  let flushed (d : LinkDir) : LinkDir := { d with replay := [], discarding := false, fails := 0 }
  let k := { k with st := 1, named := none, quiesceReq := false, fwd := flushed k.fwd, rev := flushed k.rev }
  if free ∧ n < 64 then (if b then { k with oxB := n % 32, spareB := true } else { k with oxA := n % 32, spareA := true })
  else if free then (if b then { k with spareB := true } else { k with spareA := true })
  else
    let w := widthOf (k.width / 2 == 1 || !b) (k.width % 2 == 1 || b)
    { k with width := w, st := if w = 3 then 3 else 1 }
/-- LINK_QUIESCE: steps 2 to 5, once every flit sent has been received. Without lock at both ends the link stays quiesced until they relock; one link of a tower is
quiesced at a time (R316). -/
def execLinkQuiesce (l : LinkId) (s : State) : Out :=
  .next (
    let k := s.link l
    let e := linkEnds l
    let locked := (s.clk (Fin.ofNat 10 e.1)).locked && (s.clk (Fin.ofNat 10 e.2)).locked
    let other := allLinks.any (fun m => m != l && (s.link m).st == 2
      && ((decide (e.1 < 8) && touches m e.1) || (decide (e.2 < 8) && touches m e.2)))
    match k.named, k.quiesceReq with
    | some n, true =>
      let quiet := k.fwd.recvSeq == k.fwd.sendSeq && k.rev.recvSeq == k.rev.sendSeq
      if quiet ∧ ((k.st = 1 ∧ s.procUp (2 + linkTower l) ∧ other = false) ∨ k.st = 2) then
        if locked then logTrained (s.modLink l (fun k => k.bypass n.val)) l k [n.val]
        else s.modLink l (fun k => { k with st := 2 })
      else s
    | _, _ => s)
/-- CLOCK_RELOCK: lock returns within 1 ms; each link of the die that is not dead retrains. -/
def execClockRelock (d : DieId) (s : State) : Out :=
  .next (
    match (s.clk d).unlockedAt with
    | some t =>
      if (s.clk d).locked ∨ t + 1000000 < s.now then s
      else
        let s := s.setClk d { locked := true, unlockedAt := none }
        (allLinks.filter (fun l => touches l d.val && (s.link l).st != 3)).foldl (fun (s : State) (l : LinkId) =>
          s.modLink l (fun (k : Link) => { k with st := 0 })) s
    | none => s)

/-- The tower that a dead link fences (R317): the tower end, or the one with fewer cores in service, or the higher number. -/
def fenceChoice (s : State) (l : LinkId) : Nat :=
  let e := linkEnds l
  let n (t : Nat) : Nat := ((List.range 64).filter (fun i => !(s.core (Fin.ofNat 512 (64 * t + i))).fenced)).length
  if 8 ≤ e.1 then e.2 else if n e.1 < n e.2 then e.1 else e.2

end Sys2Proof.Machine
end

