-- ==== Sys2Proof/Machine/Network.lean ====
section
/-! DEFINITION. Module ports, the transport, collectives (R352-R381). -/

namespace Sys2Proof.Machine

/-! ## Ports (R352-R358) -/

/-- Whether a port is enabled and exists in the present modes. -/
def State.portOn (s : State) (p : PortId) : Bool := s.net.regs.portEn.getLsbD p.val && (s.portDie p).isSome
/-- Whether MACsec is enabled on a port. -/
def State.needsSec (s : State) (p : PortId) : Bool := s.net.regs.macsec.getLsbD p.val
/-- Whether the NP of a port's IO die runs. -/
def State.portNp (s : State) (p : PortId) : Bool := match s.portDie p with | some d => s.procUp (10 + d) | none => false
/-- Port number, speed and lane mode of a record. -/
def portWords (s : State) (p : PortId) : List W64 := [w64 p.val, w64 (s.port p).speed, w64 (if (s.port p).slow then 1 else 0)]
/-- The source of a port's records: its IO die. -/
def srcPort (s : State) (p : PortId) : Source := srcIo ((s.portDie p).getD 0)
/-- Joins the spraying set when link, announcement and secure channel allow it (R355, R358). -/
def joinSpray (s : State) (p : PortId) : State :=
  let x := s.port p
  if x.st = 2 ∧ x.announced ∧ s.onFabric ∧ (s.needsSec p = false ∨ x.secure) then s.modPort p (fun x => { x with spraying := true }) else s
/-- The speed code of a port (Table 13.10). -/
def portSpeed (s : State) (p : PortId) (slow : Bool) : Nat :=
  let mode := if s.portDie p = some 0 then s.net.regs.modeA.toNat else s.net.regs.modeB.toNat
  (if slow then 3 else 4) - mode
/-- PORT_TRAIN: an enabled port that is down trains; lane mode 2 falls back to 200 Gb/s lanes after three failures. -/
def execPortTrain (p : PortId) (partner400 pcsUp : Bool) (s : State) : Out :=
  .next (
    let x := s.port p
    let lane := (if s.portDie p = some 0 then s.net.regs.laneA else s.net.regs.laneB).toNat
    if s.serving = false ∨ s.portOn p = false ∨ x.st ≠ 0 ∨ s.portNp p = false then s
    else
      let fast := lane = 0 ∨ (lane = 2 ∧ partner400 ∧ x.fails400 < 3)
      if lane = 0 ∧ partner400 = false then
        let s := s.modPort p (fun x => { x with fails400 := x.fails400 + 1 })
        s.log netPortTrainFail (srcPort s p) (locPort 0 p.val) 0 none [w64 p.val, w64 (s.port p).fails400]
      else if pcsUp then s.modPort p (fun x => { x with st := 1, slow := !(decide fast) })
      else if fast then s.modPort p (fun x => { x with fails400 := x.fails400 + 1 })
      else s)
/-- PORT_LINK_UP: the PCS of a trained port comes up. -/
def execPortLinkUp (p : PortId) (s : State) : Out :=
  .next (
    let x := s.port p
    if s.serving = false ∨ s.portOn p = false ∨ x.st ≠ 1 then s
    else
      let s := s.modPort p (fun x => { x with st := 2, speed := portSpeed s p x.slow })
      let s := joinSpray s p
      if s.needsSec p then s else s.log netPortUp (srcPort s p) (locPort 0 p.val) 0 none (portWords s p))
/-- A port goes down: it leaves the spraying set, and its secure channel is gone. -/
def portDown (s : State) (p : PortId) : State :=
  let x := s.port p
  if x.st = 0 then s
  else
    let det := portWords s p
    let s := s.modPort p (fun x => { x with st := 0, speed := 0, spraying := false, secure := false, announced := false })
    if x.st = 2 then s.log netPortDown (srcPort s p) (locPort 0 p.val) 0 none det else s
/-- PORT_LINK_DOWN: a PCS link fault. -/
def execPortLinkDown (p : PortId) (s : State) : Out := .next (portDown s p)
/-- FABRIC_ANNOUNCE: the NP announces the fabric address on a port that is up, resolves the gateway, and the port joins. -/
def execFabricAnnounce (p : PortId) (s : State) : Out :=
  .next (
    let x := s.port p
    if s.serving = false ∨ s.onFabric = false ∨ s.portOn p = false ∨ x.st ≠ 2 ∨ x.announced ∨ s.portNp p = false then s
    else
      let s := s.modPort p (fun x => { x with announced := true })
      let s := sendCtl s 0x100 0 0 p.val 0 0 0 []
      let s := sendCtl s 0x101 0 0 p.val 0 0 0 []
      joinSpray s p)
/-- A received frame is discarded and counted. -/
def dropFrame (s : State) (p : PortId) : State :=
  let s := s.modPort p (fun x => { x with discarded := x.discarded + 1 })
  { s with net := { s.net with dropped := s.net.dropped + 1 } }
/-- ADDRESS_RESOLUTION: the NP answers for the fabric address; a silent module discards the frame. -/
def execAddressResolution (p : PortId) (k : AddrFrame) (s : State) : Out :=
  .next (
    if s.serving = false ∨ (s.port p).st ≠ 2 then s
    else
      let fits := match k with
        | .arp => !s.net.regs.ipv6
        | .neighborDiscovery => s.net.regs.ipv6
        | .icmpEcho => true
      if s.onFabric = false ∨ fits = false then dropFrame s p
      else if s.portNp p = false then s
      else sendCtl s (match k with | .arp => 0x102 | .neighborDiscovery => 0x103 | .icmpEcho => 0x104) 0 0 p.val 0 0 0 [])
/-- DISCARDED_FRAME: a frame not addressed to the transport, or a packet that fails a check of R359; on a secure port one that
fails its integrity or replay check is among them, logged at most once per second per port (R356). -/
def execDiscardedFrame (p : PortId) (s : State) : Out :=
  .next (
    if s.serving = false ∨ (s.port p).st ≠ 2 then s
    else
      let s := dropFrame s p
      if s.needsSec p = false ∨ (s.port p).secure = false then s
      else match smGet s.net.macsecLog p.val with
        | some t => if s.now < t + 1000000000 then s else
            let s := { s with net := { s.net with macsecLog := smSet s.net.macsecLog p.val s.now } }
            s.log netMacsecFail (srcPort s p) (locPort 0 p.val) 0 none [w64 p.val, w64 (s.port p).discarded]
        | none =>
          let s := { s with net := { s.net with macsecLog := smSet s.net.macsecLog p.val s.now } }
          s.log netMacsecFail (srcPort s p) (locPort 0 p.val) 0 none [w64 p.val, w64 (s.port p).discarded])
/-- PRIORITY_FLOW_CONTROL_FRAME: a priority of the port pauses or resumes. -/
def execPriorityFlowControlFrame (p : PortId) (prio : Fin 8) (pause : Bool) (s : State) : Out :=
  .next (
    if s.serving = false ∨ (s.port p).st ≠ 2 then s
    else
      let bit : BitVec 8 := BitVec.ofNat 8 (2 ^ prio.val)
      s.modPort p (fun x => { x with paused := if pause then x.paused ||| bit else x.paused &&& ~~~bit }))
/-- MKA_FRAME: with a connectivity association key installed, MKA can establish the secure channel; the port may then join. -/
def execMkaFrame (p : PortId) (establishes : Bool) (s : State) : Out :=
  .next (
    let x := s.port p
    if s.serving = false ∨ x.st ≠ 2 then s
    else if s.onFabric = false then dropFrame s p
    else if s.portNp p = false ∨ s.needsSec p = false ∨ x.ckn.isNone ∨ establishes = false ∨ x.secure then s
    else
      let s := s.modPort p (fun x => { x with secure := true, sakGen := x.sakGen + 1, pn := 0 })
      let s := joinSpray s p
      s.log netPortUp (srcPort s p) (locPort 0 p.val) 0 none (portWords s p))
/-- SECURE_ASSOCIATION_KEY_ROTATION: the packet number starts again under a new key. -/
def execSecureAssociationKeyRotation (p : PortId) (s : State) : Out :=
  .next (if s.serving ∧ (s.port p).secure ∧ s.portNp p then s.modPort p (fun x => { x with sakGen := x.sakGen + 1, pn := 0 }) else s)

/-! ## Acknowledgement (R362) -/

/-- The packet buffer of an IO die. -/
def State.pktBuf (s : State) (die : Nat) : PktBuf := s.net.bufs.getD die { held := List.replicate 16 0, drops := 0, lastLog := none }
/-- The state with a packet buffer changed. -/
def State.modPktBuf (s : State) (die : Nat) (f : PktBuf → PktBuf) : State :=
  { s with net := { s.net with bufs := s.net.bufs.modify die f } }
/-- Whether an IO die holds more data than NET_BUF_CFG.mark. -/
def overMark (s : State) (die : Nat) : Bool := decide (s.net.regs.mark.toNat * 65536 < (s.pktBuf die).held.sum)
/-- The selective bitmap: bit i of the 256 is the psn after the cumulative one plus i. -/
def ackBitmap (c : Conn) : List W64 :=
  (List.range 4).map (fun k => BitVec.ofNat 64 (((List.range 64).map (fun i =>
    if c.recvAhead.contains (c.recvPsn + BitVec.ofNat 32 (64 * k + i + 1)) then 2 ^ i else 0)).sum))
/-- Sends an ACK on a port. -/
def sendAck (s : State) (n : W32) (port : Nat) : State :=
  match s.conn? n with
  | none => s
  | some c =>
    let die := (s.portDie (Fin.ofNat 32 port)).getD 0
    let s := sendCtl s 2 (if overMark s die then 1 else 0) c.peer port c.peerConn (w64 (c.ceSeen * 2 ^ 32 + c.recvPsn.toNat)) c.lastTs
      (ackBitmap c)
    s.modConn n (fun c => { c with unacked := 0 })
/-- The next psn expected moves on over those received ahead. -/
def advancePsn : Nat → W32 → List W32 → W32 × List W32
  | 0, n, l => (n, l)
  | fuel + 1, n, l => if l.contains n then advancePsn fuel (n + 1) (l.filter (· != n)) else (n, l)
/-- A sequenced packet is accepted: an ACK follows the eighth. -/
def acceptPsn (s : State) (p : PortId) (n : W32) (pk : Packet) : State :=
  let s := s.modConn n (fun c =>
    let r := advancePsn (c.recvAhead.length + 1) c.recvPsn (pk.psn :: c.recvAhead)
    { c with recvPsn := r.1, recvAhead := r.2, ceSeen := c.ceSeen + (if pk.ce then 1 else 0), unacked := c.unacked + 1,
             oldestUnacked := (if c.unacked = 0 then s.now else c.oldestUnacked), lastTs := pk.ts, lastUse := s.now })
  match s.conn? n with
  | some c => if 8 ≤ c.unacked then sendAck s n p.val else s
  | none => s
/-- Whether a psn was accepted before. -/
def seenPsn (c : Conn) (psn : W32) : Bool := decide (2 ^ 31 ≤ (psn - c.recvPsn).toNat) || c.recvAhead.contains psn
/-- A transport packet as a port takes it: a silent module, an insecure port and another module's packet discard it. -/
def rx (p : PortId) (pk : Packet) (s : State) (f : State → State) : Out :=
  .next (
    if s.serving = false ∨ (s.port p).st ≠ 2 then s
    else if s.onFabric = false ∨ (s.needsSec p ∧ (s.port p).secure = false) ∨ pk.dstModule ≠ s.net.regs.module then dropFrame s p
    else f s)
/-- The connection that a packet names. -/
def rxConn (s : State) (pk : Packet) : Option Conn := s.net.conns.find? (fun c => c.num == pk.conn && c.peer == pk.srcModule && c.st == 2)
/-- A sequenced packet: one seen before is acknowledged again; `f` answers whether it is accepted. -/
def rxSeq (p : PortId) (pk : Packet) (s : State) (f : State → Conn → State × Bool) : Out :=
  rx p pk s (fun s =>
    match rxConn s pk with
    | none => dropFrame s p
    | some c =>
      if seenPsn c pk.psn then sendAck (s.modConn c.num (fun c => { c with lastTs := pk.ts })) c.num p.val
      else
        let r := f s c
        if r.2 then acceptPsn r.1 p c.num pk else r.1)

/-! ## Collective instances (R370-R375) -/

/-- Bytes of an element. -/
def Coll.esize (x : Coll) : Nat := [1, 4, 2].getD x.dtype 1
/-- Whether an operation reduces. -/
def Coll.reduces (x : Coll) : Bool := x.op == 1 || x.op == 3
/-- Whether two values are the same instance. -/
def Coll.same (x y : Coll) : Bool := x.comm == y.comm && x.seq == y.seq && x.rank == y.rank && x.isLocal == y.isLocal
/-- The state with an instance changed. -/
def State.modColl (s : State) (x : Coll) (f : Coll → Coll) : State :=
  { s with net := { s.net with colls := updWhere (fun y => y.same x) f s.net.colls } }
/-- An instance as it is now. -/
def State.coll? (s : State) (x : Coll) : Option Coll := s.net.colls.find? (fun y => y.same x)
/-- The rank before a rank in the ring. -/
def Coll.before (x : Coll) : Nat := (x.rank + x.members.length - 1) % Nat.max 1 x.members.length
/-- Bytes of the message that a rank sends this member (Table 13.6). -/
def Coll.expected (x : Coll) (k : Nat) : Nat :=
  if k = x.rank then 0
  else match x.op with
    | 1 | 3 => x.count * 4
    | 2 => x.count * x.esize
    | 4 => (x.chunks.getD k (0, 0, 0, 0)).2.2.1
    | _ => if k = x.before then x.count * x.esize else 0
/-- Where a byte of a rank's message lands in spread view. -/
def Coll.landAddr (x : Coll) (k off : Nat) : Nat :=
  match x.op with
  | 2 => x.recv + k * x.count * x.esize + off
  | 4 => x.recv + (x.chunks.getD k (0, 0, 0, 0)).2.2.2 + off
  | _ => x.recv + off
/-- Bytes of a rank's message that have landed. -/
def Coll.got (x : Coll) (k : Nat) : Nat := ((x.landed.filter (fun l => l.1 == k)).map (·.2.2)).sum
/-- Whether every message has landed whole. -/
def Coll.whole (x : Coll) : Bool := (List.range x.members.length).all (fun k => decide (x.expected k ≤ x.got k))
/-- The four words of an instance's records: communicator, collective, scope, status. -/
def collWords (comm seq : W32) (scope : Nat) (st : BitVec 16) : List W64 := [comm.setWidth 64, seq.setWidth 64, w64 scope, st.setWidth 64]
/-- Frees the buffer space of a packet held for an instance. -/
def releaseEarly (s : State) (e : Early) : State :=
  let s := { s with net := { s.net with early := s.net.early.erase e } }
  s.modPktBuf e.die (fun b => { b with held := b.held.modify e.part.val (fun n => n - 8 * e.payload.length) })
/-- An instance ends: the first outcome to take effect stands (Table 13.9), and its data in the buffers is dropped. -/
def endColl (s : State) (x : Coll) (st : BitVec 16) (member : W32) : State :=
  match s.coll? x with
  | some y =>
    if y.status.isSome then s
    else
      let s := s.modColl x (fun y => { y with status := some (st, member), poison := y.poison || st == stDataPoison })
      if x.isLocal then s
      else (s.net.early.filter (fun e => e.comm == x.comm && e.seq == x.seq)).foldl releaseEarly s
  | none => s
/-- Whether every pair of a peer is lost (R361). -/
def peerGone (s : State) (m : BitVec 15) : Bool :=
  let l := s.net.pairs.filter (fun x => x.peer == m)
  !l.isEmpty && l.all (fun x => x.st == 2)
/-- A member that ends an instance withdraws it (R375): to every other module, or to the towers of a local communicator. -/
def withdrawColl (s : State) (x : Coll) (st : BitVec 16) : State :=
  let others := x.members.zipIdx.filter (fun m => m.2 != x.rank)
  let s :=
    if x.isLocal then
      others.foldl (fun s m =>
        match s.net.colls.find? (fun y => y.isLocal && y.comm == x.comm && y.seq == x.seq && y.rank == m.2) with
        | some y => endColl s y stCollWithdrawn (BitVec.ofNat 32 x.rank)
        | none => { s with net := { s.net with withdrawn := s.net.withdrawn ++ [(x.comm, x.seq, 65536 + x.rank, s.now)] } }) s
    else
      others.foldl (fun s m =>
        if peerGone s (BitVec.ofNat 15 m.1) then s
        else sendTo s (BitVec.ofNat 15 m.1) x.part (pktOf 5 (w64 (x.seq.toNat * 2 ^ 32)) x.comm [])) s
  s.log netWithdrawSent (srcNp 0) 0 0 (some (x.ctx, x.part)) (collWords x.comm x.seq 0 st)
/-- An instance fails at this member: it ends with a status and is withdrawn. -/
def failColl (s : State) (x : Coll) (st : BitVec 16) (member : W32) : State :=
  match s.coll? x with
  | some y => if y.status.isSome then s else withdrawColl (endColl s x st member) x st
  | none => s
/-- No member. -/
def noMember : W32 := 0xFFFFFFFF

/-! ## Landing (R364, R365, R370, R371) -/

/-- Whether a byte range of spread view has lost some of its lines: their writes are discarded (R224). -/
def linesLost (s : State) (a n : Nat) : Bool :=
  (blocksOf a n).any (fun b => match s.target 0 1 b with
    | some (.block t c) => (s.chan t c.ch).lost
    | _ => true)
/-- FP32 words of a reduction's data: BF16 is widened (R371). -/
def widenTerms (dtype : Nat) (bs : List Byte) : List W32 :=
  if dtype = 2 then (List.range (bs.length / 2)).map (fun i => BitVec.ofNat 32 (leNat ((bs.drop (2 * i)).take 2) * 65536))
  else (List.range (bs.length / 4)).map (fun i => BitVec.ofNat 32 (leNat ((bs.drop (4 * i)).take 4)))
/-- Bytes of a rank's message are taken by an instance. -/
def landBytes (s : State) (x : Coll) (k off : Nat) (bs : List Byte) (poison : Bool) : State :=
  let n := bs.length
  let s := s.modColl x (fun y => { y with landed := y.landed ++ [(k, off, n)], poison := y.poison || poison })
  if x.reduces then
    s.modColl x (fun y => { y with
      terms := y.terms ++ [(k, off / 4, widenTerms 1 bs)], bad := if poison then y.bad ++ [(off / 4, n / 4)] else y.bad })
  else if linesLost s (x.landAddr k off) n then failColl (s.viewWrite 0 1 (x.landAddr k off) bs poison) x stDataPoison noMember
  else s.viewWrite 0 1 (x.landAddr k off) bs poison
/-- Whether the head of a member's first packet names the same collective. -/
def headAgrees (x : Coll) (h : Option CollHead) : Bool :=
  match h with
  | some h => h.op == x.op && h.dtype == x.dtype && h.redop == x.redop && h.count == x.count
  | none => true
/-- A DATA packet of an instance that is running: a differing head or length ends it (R372). -/
def landData (s : State) (x : Coll) (e : Early) : State :=
  let k := x.members.idxOf e.src.toNat
  let n := 8 * e.payload.length
  let off := 32 * e.offset
  let who : W32 := BitVec.ofNat 32 k
  if x.members.length ≤ k ∨ x.landed.any (fun l => l.1 == k && l.2.1 == off) then s
  else if headAgrees x e.head = false ∨ x.expected k < off + n ∨ (e.final ∧ off + n ≠ x.expected k) then failColl s x stCollMismatch who
  else
    let dl (y : Coll) : Coll := { y with deadlines := y.deadlines.map (fun d => if d.1 = k then (k, s.now + y.timeoutUs * 1000) else d) }
    landBytes (s.modColl x dl) x k off (e.payload.flatMap (fun w => natLe 8 w.toNat)) e.poison
/-- Whether the lines a packet lands in are held (Table 13.9). -/
def landHeld (s : State) (x : Coll) (e : Early) : Bool :=
  !x.reduces && s.rangeHeld 0 1 (x.landAddr (x.members.idxOf e.src.toNat) (32 * e.offset)) (8 * e.payload.length)
/-- The running instance of a network communicator. -/
def netColl (s : State) (comm seq : W32) : Option Coll := s.net.colls.find? (fun x => x.comm == comm && x.seq == seq && !x.isLocal)
/-- Data in the buffers lands where it can. -/
def drainBuf (s : State) : State :=
  s.net.early.foldl (fun (s : State) (e : Early) =>
    match netColl s e.comm e.seq with
    | some x => if x.status.isSome ∨ landHeld s x e then s else landData (releaseEarly s e) x e
    | none => s) s
/-- A data packet is dropped, with NET_BUF_DROP at most once per second. -/
def bufDrop (s : State) (die : Nat) (part : PartId) : State :=
  let s := { s with net := { s.net with dropped := s.net.dropped + 1 } }
  let s := s.modPktBuf die (fun b => { b with drops := b.drops + 1 })
  let b := s.pktBuf die
  let due := match b.lastLog with | some t => decide (t + 1000000000 ≤ s.now) | none => true
  if due then
    (s.modPktBuf die (fun b => { b with drops := 0, lastLog := some s.now })).log netBufDrop (srcIo die) (locDie (8 + die)) 0 none
      [w64 die, w64 part.val, w64 b.drops]
  else s
/-- A payload word list as a packet in a buffer. -/
def earlyOf (s : State) (p : PortId) (c : Conn) (pk : Packet) : Early where
  comm := pk.b
  seq := BitVec.ofNat 32 (bits pk.a 32 32)
  src := pk.srcModule
  offset := bits pk.a 0 32
  final := bit pk.flags 2
  payload := pk.payload
  head := pk.head
  poison := pk.poison
  die := (s.portDie p).getD 0
  part := c.part
/-- Keeps a packet in its IO die's buffer. -/
def keepEarly (s : State) (e : Early) : State :=
  let s := { s with net := { s.net with early := s.net.early ++ [e] } }
  s.modPktBuf e.die (fun b => { b with held := b.held.modify e.part.val (fun n => n + 8 * e.payload.length) })
/-- DATA: buffered within the limits of R364, landed or kept; data of an ended collective is dropped. -/
def execData (p : PortId) (pk : Packet) (s : State) : Out :=
  rxSeq p pk s (fun s c =>
    let s := drainBuf s
    let e := earlyOf s p c pk
    let n := 8 * e.payload.length
    let b := s.pktBuf e.die
    if 46 * 2 ^ 20 < b.held.sum + n ∨ (s.net.regs.bufLimit.getD e.part.val 736).toNat * 65536 < b.held.getD e.part.val 0 + n then
      (bufDrop s e.die e.part, false)
    else match netColl s e.comm e.seq with
      | some x =>
        if x.status.isSome ∨ x.members.contains e.src.toNat = false then ({ s with net := { s.net with dropped := s.net.dropped + 1 } }, true)
        else if landHeld s x e then (keepEarly s e, true)
        else (landData s x e, true)
      | none =>
        if s.net.ended.contains (e.comm, e.seq) then ({ s with net := { s.net with dropped := s.net.dropped + 1 } }, true)
        else
          let mine := ((s.net.early.filter (fun x => x.comm == e.comm && x.seq == e.seq)).map (fun x => 8 * x.payload.length)).sum
          if s.net.regs.early.toNat * 65536 < mine + n then ({ s with net := { s.net with dropped := s.net.dropped + 1 } }, false)
          else (keepEarly s e, true))

/-! ## Acknowledgements at the sender (R361, R363) -/

/-- Whether an ACK acknowledges a psn. -/
def ackHas (pk : Packet) (psn : W32) : Bool :=
  let cum : W32 := pk.a.setWidth 32
  let d := (psn - cum).toNat
  decide (2 ^ 31 ≤ d) || (decide (1 ≤ d) && decide (d ≤ 256) && (pk.payload.getD ((d - 1) / 64) 0).getLsbD ((d - 1) % 64))
/-- A packet is sent again on another port. -/
def resend (s : State) (n : W32) (psn : W32) : State :=
  match s.conn? n with
  | none => s
  | some c =>
    match s.net.out.find? (fun x => x.peer == c.peer.toNat && x.conn == c.peerConn && x.psn == psn && (decide (3 < x.type) || x.type == 1)),
        c.outstanding.find? (fun o => o.psn == psn) with
    | some x, some o =>
      let p := s.sprayPort c.peer (psn.toNat + o.resent + 1)
      let s := s.wire { x with port := p, flags := x.flags ||| 2 }
      let again (o : Sent) : Sent := { o with port := Fin.ofNat 32 p, stamp := s.now, resent := o.resent + 1, later := 0 }
      s.modConn n (fun c => { c with outstanding := updWhere (fun o => o.psn == psn) again c.outstanding })
    | _, _ => s
/-- ACK: it frees packets, measures the round trip, counts marks, and resends what 64 later packets have passed. -/
def execAck (p : PortId) (pk : Packet) (s : State) : Out :=
  rx p pk s (fun s =>
    match rxConn s pk with
    | none => dropFrame s p
    | some c =>
      let gone := c.outstanding.filter (fun o => ackHas pk o.psn)
      let left := c.outstanding.filter (fun o => !(ackHas pk o.psn))
      let ce := bits pk.a 32 32
      let marked := if bit pk.flags 0 then Nat.max gone.length (ce - c.ceAcked) else ce - c.ceAcked
      let rtt := (gone.filter (fun o => o.resent == 0)).map (fun o => (s.now - o.stamp) / 1000)
      let srtt := match rtt with | x :: _ => Config.smooth c.srttUs x | [] => c.srttUs
      let left := left.map (fun o =>
        { o with later := o.later + (gone.filter (fun g => decide (1 ≤ (g.psn - o.psn).toNat) && decide ((g.psn - o.psn).toNat < 2 ^ 31))).length })
      let s := s.modConn c.num (fun c => { c with
        outstanding := left, ceAcked := Nat.max ce c.ceAcked, acked := c.acked + gone.length, roundCe := c.roundCe + marked,
        echo := c.echo || bit pk.flags 0, srttUs := srtt, lastUse := s.now })
      let live (x : Pair) : Pair :=
        if x.peer = c.peer ∧ (x.port = p ∨ gone.any (fun o => o.port == x.port)) then { x with st := 0, lastAck := s.now } else x
      let s := { s with net := { s.net with pairs := s.net.pairs.map live } }
      let s := (left.filter (fun o => decide (64 ≤ o.later))).foldl (fun s o => resend s c.num o.psn) s
      s.pumpConn c.num)
/-- PROBE: answered by an ACK on the same port. -/
def execProbe (p : PortId) (pk : Packet) (s : State) : Out :=
  rx p pk s (fun s => match rxConn s pk with | some c => sendAck s c.num p.val | none => dropFrame s p)
/-- ACK_TIMER: 4 µs after the oldest unacknowledged packet. -/
def execAckTimer (conn : W32) (s : State) : Out :=
  .next (
    match s.conn? conn with
    | some c =>
      if s.serving ∧ c.st = 2 ∧ 0 < c.unacked ∧ c.oldestUnacked + 4000 ≤ s.now then sendAck s conn (s.sprayPort c.peer 0) else s
    | none => s)
/-- RETRANSMIT_TIMEOUT: after the larger of rto_min_us and twice the smoothed round trip. -/
def execRetransmitTimeout (conn psn : W32) (s : State) : Out :=
  .next (
    match s.conn? conn with
    | some c =>
      match c.outstanding.find? (fun o => o.psn == psn) with
      | some o =>
        if s.serving ∧ o.stamp + Nat.max s.net.regs.rtoMin.toNat (2 * c.srttUs) * 1000 ≤ s.now then resend s conn psn else s
      | none => s
    | none => s)
/-- CC_ROUND: once per round trip the window grows by 4 KiB or falls; it stays within its limits. -/
def execCcRound (conn : W32) (delayUs : Nat) (s : State) : Out :=
  .next (
    match s.conn? conn with
    | some c =>
      if s.serving = false ∨ c.st ≠ 2 ∨ s.now < c.lastRound + c.srttUs * 1000 then s
      else
        let target := s.net.regs.targetUs.toNat
        let n := Nat.max 1 c.acked
        let w := if 0 < c.roundCe then c.window - c.window * Nat.min c.roundCe n / (2 * n) else c.window
        let w := if target < delayUs then w * target / delayUs else w
        let w := if c.roundCe = 0 ∧ delayUs ≤ target then w + 4096 else w
        let w := Nat.max 4096 (Nat.min w (s.net.regs.maxWindow.toNat * 4096))
        (s.modConn conn (fun c => { c with window := w, acked := 0, roundCe := 0, echo := false, lastRound := s.now })).pumpConn conn
    | none => s)

/-! ## Connections (R359, R360, R366) -/

/-- A connection ends: the records it still owed are gone with it (R367). -/
def dropConn (s : State) (n : W32) : State :=
  let s := { s with net := { s.net with conns := s.net.conns.filter (fun c => c.num != n) } }
  { s with ctxs := s.ctxs.map (fun x => { x with peerStreams := x.peerStreams.filter (fun y => y.1 != n) }) }
/-- CONNECT: a module with a valid peer entry gets a connection and its CONNECT_ACK; others get no reply. -/
def execConnect (p : PortId) (pk : Packet) (s : State) : Out :=
  rx p pk s (fun s =>
    let theirs : W32 := BitVec.ofNat 32 (bits pk.a 32 32)
    let part : PartId := Fin.ofNat 16 (bits pk.a 0 4)
    let reply (s : State) (n : W32) : State :=
      sendCtl s 7 0 pk.srcModule p.val theirs (w64 (n.toNat * 2 ^ 32 + part.val)) 0 []
    if s.portNp p = false then s
    else match s.net.conns.find? (fun c => c.peer == pk.srcModule && c.part == part && c.st == 2 && c.peerConn == theirs) with
      | some c => reply s c.num
      | none =>
        let e := peerEntry s pk.srcModule
        match e.2, decide (e.1.net.conns.length < 65536) with
        | some ws, true =>
          let s := e.1
          let c := newConn s pk.srcModule part 2 theirs (ws.drop 4)
          let s := { s with net := { s.net with conns := s.net.conns ++ [c] }, free := s.free + 1 }
          reply (s.addPairs pk.srcModule) c.num
        | _, _ => e.1)
/-- CONNECT_ACK: the connection opens, and what waited for it goes. -/
def execConnectAck (p : PortId) (pk : Packet) (s : State) : Out :=
  rx p pk s (fun s =>
    match s.net.conns.find? (fun c => c.num == pk.conn && c.peer == pk.srcModule && c.st == 1) with
    | some c =>
      (s.modConn c.num (fun c => { c with st := 2, peerConn := BitVec.ofNat 32 (bits pk.a 32 32), lastUse := s.now })).pumpConn c.num
    | none => dropFrame s p)
/-- CLOSE. -/
def execClose (p : PortId) (pk : Packet) (s : State) : Out :=
  rx p pk s (fun s => match rxConn s pk with | some c => dropConn s c.num | none => dropFrame s p)
/-- CONNECT_RETRY: every 100 µs, up to 8 times; then the connection stays closed until its next use. -/
def execConnectRetry (conn : W32) (s : State) : Out :=
  .next (
    match s.conn? conn with
    | some c =>
      if s.serving = false ∨ c.st ≠ 1 ∨ s.now < c.nextAttempt then s
      else if 8 ≤ c.attempts then s.modConn conn (fun c => { c with st := 0 })
      else tryConnect s c
    | none => s)
/-- CONNECTION_IDLE_TIMEOUT: idle for 10 s. -/
def execConnectionIdleTimeout (conn : W32) (s : State) : Out :=
  .next (
    match s.conn? conn with
    | some c =>
      if s.serving ∧ c.st = 2 ∧ c.outstanding.isEmpty ∧ c.waiting.isEmpty ∧ c.lastUse + 10000000000 ≤ s.now then
        dropConn (sendCtl s 8 0 c.peer (s.sprayPort c.peer 0) c.peerConn 0 0 []) conn
      else s
    | none => s)

/-! ## Liveness (R361) -/

/-- A pair. -/
def State.pair? (s : State) (m : BitVec 15) (p : PortId) : Option Pair := s.net.pairs.find? (fun x => x.peer == m && x.port == p)
/-- The state with a pair changed. -/
def State.modPair (s : State) (m : BitVec 15) (p : PortId) (f : Pair → Pair) : State :=
  { s with net := { s.net with pairs := updWhere (fun x => x.peer == m && x.port == p) f s.net.pairs } }
/-- Packets outstanding on a pair: connection and packet. -/
def pairOut (s : State) (m : BitVec 15) (p : PortId) : List (W32 × Sent) :=
  s.net.conns.flatMap (fun c => if c.peer == m && c.st == 2 then (c.outstanding.filter (fun o => o.port == p)).map (fun o => (c.num, o)) else [])
/-- Since when a pair has been silent with packets outstanding. -/
def silentSince (s : State) (x : Pair) : Option Nat :=
  match (pairOut s x.peer x.port).map (fun o => o.2.stamp) with
  | [] => none
  | t :: ts => some (Nat.max x.lastAck (ts.foldl Nat.min t))
/-- Sends a PROBE on a pair. -/
def sendProbe (s : State) (x : Pair) : State :=
  let s := s.modPair x.peer x.port (fun x => { x with lastProbe := s.now })
  match s.net.conns.find? (fun c => c.peer == x.peer && c.st == 2) with
  | some c => sendCtl s 3 0 x.peer x.port.val c.peerConn 0 0 []
  | none => s
/-- PATH_PROBE_TIMER: silent for 24 µs. -/
def execPathProbeTimer (peer : BitVec 15) (p : PortId) (s : State) : Out :=
  .next (
    match s.pair? peer p with
    | some x =>
      match silentSince s x with
      | some t => if s.serving ∧ x.st = 0 ∧ t + 24000 ≤ s.now then sendProbe (s.modPair peer p (fun x => { x with st := 1 })) x else s
      | none => s
    | none => s)
/-- A peer is lost: its connections close and the collectives that involve it end. -/
def losePeer (s : State) (m : BitVec 15) : State :=
  let gone := s.net.conns.filter (fun c => c.peer == m)
  let s := gone.foldl (fun s c => dropConn s c.num) s
  let s := s.log netPeerLost (srcNp 0) 0 0 none [w64 m.toNat, w64 gone.length]
  (s.net.colls.filter (fun x => !x.isLocal && x.members.contains m.toNat && x.status.isNone)).foldl (fun s x =>
    failColl s x stNetPeerLost (BitVec.ofNat 32 (x.members.idxOf m.toNat))) s
/-- PATH_SILENCE_TIMEOUT: at 64 µs the pair is lost and its packets are resent on other ports. -/
def execPathSilenceTimeout (peer : BitVec 15) (p : PortId) (s : State) : Out :=
  .next (
    match s.pair? peer p with
    | some x =>
      match silentSince s x with
      | some t =>
        if s.serving = false ∨ x.st = 2 ∨ s.now < t + 64000 then s
        else
          let todo := pairOut s peer p
          let s := s.modPair peer p (fun x => { x with st := 2, lastProbe := s.now })
          let s := s.log netPathLost (srcPort s p) (locPort 0 p.val) 0 none [w64 peer.toNat, w64 p.val]
          if peerGone s peer then losePeer s peer
          else todo.foldl (fun s o => resend s o.1 o.2.psn) s
      | none => s
    | none => s)
/-- PATH_RETRY_TIMER: a lost pair is probed every 1 ms. -/
def execPathRetryTimer (peer : BitVec 15) (p : PortId) (s : State) : Out :=
  .next (
    match s.pair? peer p with
    | some x => if s.serving ∧ x.st = 2 ∧ x.lastProbe + 1000000 ≤ s.now then sendProbe s x else s
    | none => s)

/-! ## Submissions (R367) -/

/-- The next sequence number of a peer's stream in a context. -/
def Ctx.streamSeq (x : Ctx) (n : W32) : W32 := ((x.peerStreams.find? (fun y => y.1 == n)).map (·.2)).getD 0
/-- A stream moves on. -/
def Ctx.nextStream (x : Ctx) (n : W32) : Ctx :=
  { x with peerStreams := x.peerStreams.filter (fun y => y.1 != n) ++ [(n, x.streamSeq n + 1)] }
/-- Takes the descriptors of a SUBMIT in order; none follows one that breaks the sequence. -/
def takeDescs (c : CtxId) (n : W32) : List (List W64) → State → State
  | [], s => s
  | ws :: rest, s =>
    match s.ctx? c with
    | some x =>
      let seq : W32 := (ws.getD 0 0).setWidth 32
      if x.st ≠ .open_ then s
      else if seq ≠ x.streamSeq n then ctxError s x stRingSeq seq
      else takeDescs c n rest (takeDesc (s.modCtx c (fun x => x.nextStream n)) c ws (some n))
    | none => s
/-- SUBMIT: a denied one is dropped and logged; one for which the records would not fit is not accepted yet (R335). -/
def execSubmit (p : PortId) (pk : Packet) (s : State) : Out :=
  rxSeq p pk s (fun s c =>
    let n := bits pk.a 56 8
    let ctx : CtxId := Fin.ofNat 256 n
    let descs := (List.range (pk.payload.length / 8)).map (fun i => (pk.payload.drop (8 * i)).take 8)
    let allowed := (c.mask.getD (n / 64) 0).getLsbD (n % 64)
    match s.ctx? ctx with
    | some x =>
      if allowed = false ∨ x.net = false then
        (s.log netSubmitDenied (srcPort s p) 0 0 none [w64 c.peer.toNat, w64 n], true)
      else if 4096 < x.load + (descs.map (fun ws => (descCount ws).getD 1)).sum then (s, false)
      else (takeDescs ctx c.num descs s, true)
    | none => (s.log netSubmitDenied (srcPort s p) 0 0 none [w64 c.peer.toNat, w64 n], true))
/-- COMPLETE: records for a submission of this module are kept as they arrive. -/
def execComplete (p : PortId) (pk : Packet) (s : State) : Out :=
  rxSeq p pk s (fun s c => ({ s with net := { s.net with completes := s.net.completes ++ [(c.peer.toNat, pk.payload)] } }, true))

/-! ## Pace and withdraw (R374-R376) -/

/-- A PACE of a member moves its deadline, within the cap of the instance. -/
def pacedColl (cap now k delay : Nat) (x : Coll) : Coll :=
  if x.paceUsed + delay ≤ cap then
    { x with paceUsed := x.paceUsed + delay,
             deadlines := x.deadlines.map (fun d => if d.1 = k then (k, now + (x.timeoutUs + delay) * 1000) else d) }
  else x
/-- PACE. -/
def execPace (p : PortId) (pk : Packet) (s : State) : Out :=
  rxSeq p pk s (fun s c =>
    let seq : W32 := BitVec.ofNat 32 (bits pk.a 32 32)
    let hit (x : Coll) : Bool :=
      !x.isLocal && x.comm == pk.b && (seq == 0xFFFFFFFF || x.seq == seq) && x.status.isNone && x.members.contains c.peer.toNat
    let f (x : Coll) : Coll := pacedColl (s.net.regs.paceMaxMs.toNat * 1000) s.now (x.members.idxOf c.peer.toNat) (bits pk.a 0 16) x
    ({ s with net := { s.net with colls := updWhere hit f s.net.colls } }, true))
/-- The ring steps of a communicator end (R298). -/
def abortRings (s : State) (comm : W32) : State :=
  (s.seqs.filter (fun q => q.ring && q.ringId == comm)).foldl ringAbort s
/-- A withdraw of a step's collective sets flag 31 in the cores that run work items of the step (R386). -/
def flagStep (s : State) (x : Coll) : State :=
  match (s.core x.core).item with
  | some i =>
    match i.stepPhase with
    | some p =>
      let mine (j : WorkItem) : Bool :=
        j.context == i.context && j.peer == i.peer && (match j.stepPhase with | some r => r.1 == p.1 | none => false)
      let flag (k : Core) : Core := { k with flags := if k.item.any mine then k.flags ||| 0x80000000 else k.flags }
      if i.fetchOrder = x.fetched then { s with cores := s.cores.map (fun (k : Nat × Core) => (k.1, flag k.2)) } else s
    | none => s
  | none => s
/-- WITHDRAW: one instance, or every instance that involves the sender. -/
def execWithdraw (p : PortId) (pk : Packet) (s : State) : Out :=
  rxSeq p pk s (fun s c =>
    let seq : W32 := BitVec.ofNat 32 (bits pk.a 32 32)
    let scope := bits pk.a 0 8
    let m := c.peer.toNat
    let s := s.log netWithdrawRecv (srcPort s p) 0 0 none (collWords pk.b seq scope stCollWithdrawn)
    if scope = 1 then
      let hit := s.net.colls.filter (fun x => !x.isLocal && x.members.contains m && x.status.isNone)
      let s := hit.foldl (fun s x => flagStep (endColl s x stCollWithdrawn (BitVec.ofNat 32 (x.members.idxOf m))) x) s
      let s := ((hit.map (·.comm)).eraseDups).foldl abortRings s
      let clear (c : Conn) : Conn := { c with waiting := c.waiting.filter (fun x => x.type != 0x0A) }
      ({ s with net := { s.net with conns := updWhere (fun c => c.peer.toNat == m) clear s.net.conns } }, true)
    else match netColl s pk.b seq with
      | some x => (abortRings (flagStep (endColl s x stCollWithdrawn (BitVec.ofNat 32 (x.members.idxOf m))) x) pk.b, true)
      | none =>
        if s.net.ended.contains (pk.b, seq) then (s, true)
        else (abortRings { s with net := { s.net with withdrawn := s.net.withdrawn ++ [(pk.b, seq, m, s.now)] } } pk.b, true))
/-- WITHDRAW_MEMORY_EXPIRY: a remembered withdraw is forgotten after 1 s. -/
def execWithdrawMemoryExpiry (comm collSeq : W32) (s : State) : Out :=
  .next { s with net := { s.net with
    withdrawn := s.net.withdrawn.filter (fun w => !(w.1 == comm && w.2.1 == collSeq && decide (w.2.2.2 + 1000000000 ≤ s.now))) } }
/-- COLL_TIMEOUT: a progress deadline has passed. -/
def execCollTimeout (comm collSeq : W32) (s : State) : Out :=
  .next (
    (s.net.colls.filter (fun x => x.comm == comm && x.seq == collSeq && x.status.isNone)).foldl (fun s x =>
      match x.deadlines.find? (fun d => decide (d.2 ≤ s.now) && decide (x.got d.1 < x.expected d.1)) with
      | some d => failColl s x stCollTimeout (BitVec.ofNat 32 d.1)
      | none => s) s)
/-- The number of a reason (Table 13.4). -/
def paceNo : PaceReason → Nat
  | .thermalHold => 1
  | .powerCap => 2
  | .linkDegraded => 3
/-- Whether the cause of a hint lasts (R376). -/
def paceCause (s : State) (lateNs : Nat) : PaceReason → Bool
  | .thermalHold => s.slices.any (fun x => x.2.chans.any (fun c => c.holdSince.isSome))
  | .powerCap => decide (s.pwr.qMax < 16) && decide (10000 < lateNs)
  | .linkDegraded => s.links.any (fun l => l.width == 1 || l.width == 2) && decide (10000 < lateNs)
/-- PACE_HINT_SEND: to every member of the communicator, every 32 µs while the cause lasts and when the prediction grows. -/
def execPaceHintSend (comm : W32) (reason : PaceReason) (latenessNs : Nat) (s : State) : Out :=
  .next (
    let us := Nat.min 65535 ((latenessNs + 999) / 1000)
    let due := match s.net.pacing.find? (fun x => x.comm == comm) with
      | some x => decide (x.lastAt + 32000 ≤ s.now) || decide (x.delayUs + 10 < us)
      | none => true
    match s.net.colls.find? (fun x => x.comm == comm && !x.isLocal && x.status.isNone) with
    | some x =>
      if s.serving = false ∨ s.mpUp = false ∨ (s.procUp 10 = false ∧ s.procUp 11 = false) ∨ paceCause s latenessNs reason = false
          ∨ due = false then s
      else
        let s := (x.members.zipIdx.filter (fun m => m.2 != x.rank)).foldl (fun s m =>
          sendTo s (BitVec.ofNat 15 m.1) x.part (pktOf 4 (w64 (0xFFFFFFFF * 2 ^ 32 + paceNo reason * 65536 + us)) comm [])) s
        let fresh : PaceOut := { comm := comm, lastAt := s.now, delayUs := us }
        let rest := s.net.pacing.filter (fun (y : PaceOut) => y.comm != comm)
        let s := { s with net := { s.net with pacing := rest ++ [fresh] } }
        s.log netPaceSent (srcNp (if s.procUp 10 then 0 else 1)) 0 0 none [comm.setWidth 64, w64 (paceNo reason), w64 us]
    | none => s)

/-! ## COLL (R124, R368-R373) -/

/-- COLL: a reader and writer of its descriptor buffer. -/
def execColl (c : CoreId) (descBuf : BitVec 8) (descReg : BitVec 5) (s : State) : Out :=
  dispatch c s (fun k s =>
    let r := (rngAt k descBuf (k.reg descReg).toNat).getD { buf := descBuf.toNat, addr := 0, len := 0 }
    s.setCore c (k.dispatchOp .col [descBuf.toNat] [descBuf.toNat] (.coll { r with len := 256 })))
/-- The status a COLL fails with at issue: its descriptor lies in its buffer, which it writes. -/
def collFails (k : Core) (r : Rng) : Option (BitVec 16) := rngFails k r 1 true
/-- The instance that a descriptor asks for, before the communicator is read. -/
def collOf (c : CoreId) (e : Entry) (i : WorkItem) (r : Rng) (ws : List W64) : Coll :=
  let q (n : Nat) : W64 := ws.getD n 0
  { comm := 0, seq := BitVec.ofNat 32 (bits (q 0) 32 32), core := c, ord := e.ord, fetched := i.fetchOrder, ctx := i.context,
    part := i.partition, op := bits (q 0) 8 8, dtype := bits (q 0) 16 4, redop := bits (q 0) 20 4, members := [], rank := 0,
    isLocal := false, send := bits (q 3) 0 60, recv := bits (q 4) 0 60, count := (q 5).toNat, chunks := [], timeoutUs := bits (q 6) 0 32,
    deadlines := [], paceUsed := 0, landed := [], terms := [], bad := [], exchanged := false, status := none, poison := false, desc := r }
/-- Whether the fields of a descriptor are legal (Table 13.5). -/
def descLegal (ws : List W64) (x : Coll) : Bool :=
  let q (n : Nat) : W64 := ws.getD n 0
  bits (q 0) 24 8 == 0 && bits (q 0) 0 8 == 1 && decide (1 ≤ x.op) && decide (x.op ≤ 5) && decide (x.dtype ≤ 2) && decide (x.redop ≤ 2)
  && bits (q 1) 16 16 == 0 && decide (100 ≤ x.timeoutUs) && decide (x.timeoutUs ≤ 10000000) && (ws.drop 8).all (· == 0)
  && (x.op == 4 || q 7 == 0) && (x.dtype != 0 || x.op == 2 || x.op == 5)
/-- The send and receive ranges of an operation on R members: address and bytes (Table 13.6). -/
def collRanges (x : Coll) (n : Nat) : (Nat × Nat) × (Nat × Nat) :=
  let b := x.count * x.esize
  match x.op with
  | 2 => ((x.send, b), (x.recv, n * b))
  | 3 => ((x.send, n * b), (x.recv, b))
  | _ => ((x.send, b), (x.recv, b))
/-- Whether a range of spread view is legal for a partition (R369, R372). -/
def collRange (s : State) (p : PartId) (addr n : Nat) (write : Bool) : Bool :=
  addr % 32 == 0 && n % 32 == 0 && (n == 0 || (s.accessFails p 0 1 addr n write).isNone)
/-- The communicator of a descriptor: comm_id, local, rank and members; none when it is illegal. -/
def readComm (s : State) (p : PartId) (addr : W64) : State × Option (W32 × Bool × Nat × List Nat) :=
  match spreadArea s p addr 64 false with
  | none => (s, none)
  | some a =>
    let h := s.viewRead 0 1 a 64
    let ws := leWords h.2.1 8
    let q (n : Nat) : W64 := ws.getD n 0
    let n := bits (q 0) 16 16
    let isLocal := bit (q 0) 0
    let legal := bits (q 0) 1 15 == 0 && bits (q 1) 16 48 == 0 && (ws.drop 2).all (· == 0) && decide (2 ≤ n)
      && decide (n ≤ (if isLocal then 8 else 32768)) && decide (bits (q 1) 0 16 < n)
    if legal = false then (h.1, none)
    else match spreadArea h.1 p (addr + 64) (2 * n) false with
      | none => (h.1, none)
      | some b =>
        let l := h.1.viewRead 0 1 b (2 * n)
        (l.1, some (BitVec.ofNat 32 (bits (q 0) 32 32), isLocal, bits (q 1) 0 16,
          (List.range n).map (fun i => leNat ((l.2.1.drop (2 * i)).take 2) % 32768)))
/-- The chunk table of an all-to-all: lengths and offsets in bytes. -/
def readChunks (s : State) (p : PartId) (addr : W64) (n : Nat) : State × Option (List (Nat × Nat × Nat × Nat)) :=
  match spreadArea s p addr (16 * n) false with
  | none => (s, none)
  | some a =>
    let r := s.viewRead 0 1 a (16 * n)
    let ws := leWords r.2.1 (2 * n)
    (r.1, some ((List.range n).map (fun i =>
      let u := ws.getD (2 * i) 0
      let v := ws.getD (2 * i + 1) 0
      (32 * bits u 32 32, 32 * bits u 0 32, 32 * bits v 32 32, 32 * bits v 0 32))))
/-- Whether the members of an instance name this member and its reachable peers: the issuing tower or the module at its rank, a valid
entry for every other module. -/
def membersOk (s : State) (c : CoreId) (x : Coll) : State × Bool :=
  let mine := if x.isLocal then (towerOf c).val else s.net.regs.module.toNat
  let s0 : State × Bool := (s, x.members[x.rank]? == some mine && (!x.isLocal || x.members.all (fun m => decide (m < 8))))
  if x.isLocal then s0
  else (x.members.zipIdx.filter (fun m => m.2 != x.rank)).foldl (fun (acc : State × Bool) m =>
    let r := peerEntry acc.1 (BitVec.ofNat 15 m.1)
    (r.1, acc.2 && r.2.isSome)) s0
/-- Bytes of spread view in pieces of at most 4,096 B; a piece with a poisoned block is cut into its blocks. -/
def pieces (a : Nat) : Nat → Nat → State → State × List (Nat × List Byte × Bool)
  | _, 0, s => (s, [])
  | off, fuel + 1, s =>
    let r := s.viewRead 0 1 (a + off) 32
    let t := pieces a (off + 32) fuel r.1
    match t.2 with
    | (o, bs, false) :: rest =>
      if r.2.2 = false ∧ o % 4096 ≠ 0 then (t.1, (off, r.2.1 ++ bs, false) :: rest) else (t.1, (off, r.2.1, r.2.2) :: t.2)
    | _ => (t.1, (off, r.2.1, r.2.2) :: t.2)
/-- The message of an instance for a rank: address and bytes of the send range. -/
def Coll.message (x : Coll) (j : Nat) : Nat × Nat :=
  match x.op with
  | 3 => (x.send + j * x.count * x.esize, x.count * x.esize)
  | 4 => (x.send + (x.chunks.getD j (0, 0, 0, 0)).2.1, (x.chunks.getD j (0, 0, 0, 0)).1)
  | 5 => if j = (x.rank + 1) % Nat.max 1 x.members.length then (x.send, x.count * x.esize) else (x.send, 0)
  | _ => (x.send, x.count * x.esize)
/-- A piece as it travels: the terms of a reduction as FP32. -/
def wireBytes (x : Coll) (bs : List Byte) : List Byte :=
  if x.reduces then (widenTerms x.dtype bs).flatMap (fun w => natLe 4 w.toNat) else bs
/-- The packets of a message for a rank: offset in bytes of the message, bytes, poison. -/
def collMsg (s : State) (x : Coll) (j : Nat) : State × List (Nat × List Byte × Bool) :=
  let m := x.message j
  let r := pieces m.1 0 (m.2 / 32) s
  let scale := if x.reduces ∧ x.dtype = 2 then 2 else 1
  (r.1, r.2.map (fun y => (scale * y.1, wireBytes x y.2.1, y.2.2)))
/-- Cuts a piece into payloads of at most 4,096 B. -/
def payloads (y : Nat × List Byte × Bool) : List (Nat × List Byte × Bool) :=
  if y.2.1.length ≤ 4096 then [y] else [(y.1, y.2.1.take 4096, y.2.2), (y.1 + 4096, y.2.1.drop 4096, y.2.2)]
/-- The DATA packets of an instance for a rank; a member's first carries the head (R372). -/
def sendMsg (s : State) (x : Coll) (j : Nat) : State :=
  let r := collMsg s x j
  let l := r.2.flatMap payloads
  let total := (l.map (fun y => y.2.1.length)).sum
  let head : CollHead := { op := x.op, dtype := x.dtype, redop := x.redop, count := x.count }
  l.foldl (fun s y =>
    sendTo s (BitVec.ofNat 15 (x.members.getD j 0)) x.part
      { pktOf 1 (w64 (x.seq.toNat * 2 ^ 32 + y.1 / 32)) x.comm (leWords y.2.1 (y.2.1.length / 8)) with
        flags := if y.1 + y.2.1.length = total then 4 else 0, head := if y.1 = 0 then some head else none, poison := y.2.2 }) r.1
/-- A member's own part of the result. -/
def ownPart (s : State) (x : Coll) : State :=
  if x.op = 5 then s
  else
    let r := collMsg s x x.rank
    r.2.foldl (fun s y => landBytes s x x.rank y.1 y.2.1 y.2.2) r.1
/-- The members of a local communicator exchange their data once every one has issued its instance and no line is held. -/
def exchange (s : State) (x : Coll) : State :=
  let all := s.net.colls.filter (fun y => y.isLocal && y.comm == x.comm && y.seq == x.seq)
  let held := all.any (fun y => (collRanges y y.members.length).2.2 != 0 && s.rangeHeld 0 1 y.recv (collRanges y y.members.length).2.2)
  let same (y : Coll) : Bool := y.members == x.members && headAgrees x (some { op := y.op, dtype := y.dtype, redop := y.redop, count := y.count })
  if x.isLocal = false ∨ all.length < x.members.length ∨ all.any (fun y => y.exchanged || y.status.isSome) ∨ held then s
  else match all.find? (fun y => !(same y) || (y.op == 4 && all.any (fun z => z.rank != y.rank && (y.message z.rank).2 != z.expected y.rank))) with
    | some y => failColl s x stCollMismatch (BitVec.ofNat 32 y.rank)
    | none =>
      let s := all.foldl (fun (s : State) (y : Coll) => s.modColl y (fun (z : Coll) => { z with exchanged := true })) s
      all.foldl (fun s y => (all.filter (fun z => z.rank != y.rank)).foldl (fun s z =>
        let r := collMsg s z y.rank
        r.2.foldl (fun s m => landBytes s y z.rank m.1 m.2.1 m.2.2) r.1) s) s
/-- COLL starts: an illegal descriptor, a module without a port, or a remembered withdraw ends it before any traffic. -/
def startColl (s : State) (c : CoreId) (e : Entry) (i : WorkItem) (r : Rng) : State :=
  let ws := leWords (s.csRead c r.addr 256) 32
  let q (n : Nat) : W64 := ws.getD n 0
  let x := collOf c e i r ws
  let add (s : State) (x : Coll) : State := { s with net := { s.net with colls := s.net.colls ++ [x] } }
  let stop (s : State) (x : Coll) (st : BitVec 16) (m : W32) : State := add s { x with status := some (st, m) }
  if descLegal ws x = false ∨ bits (q 3) 60 4 ≠ 1 ∨ bits (q 4) 60 4 ≠ 1 then stop s x stCollInvalid noMember
  else
    let m := readComm s i.partition (q 2)
    match m.2 with
    | none => stop m.1 x stCollInvalid noMember
    | some (comm, isLocal, rank, members) =>
      let x := { x with comm := comm, isLocal := isLocal, rank := rank, members := members }
      let n := members.length
      let t := if x.op = 4 then readChunks m.1 i.partition (q 7) n else (m.1, some [])
      match t.2 with
      | none => stop t.1 x stCollInvalid noMember
      | some chunks =>
        let x := { x with chunks := chunks }
        let ok := membersOk t.1 c x
        let s := ok.1
        let rg := collRanges x n
        let fits := if x.op = 4 then
            x.send % 32 == 0 && x.recv % 32 == 0 && chunks.all (fun y => collRange s i.partition (x.send + y.2.1) y.1 false
              && collRange s i.partition (x.recv + y.2.2.2) y.2.2.1 true)
          else collRange s i.partition rg.1.1 rg.1.2 false && collRange s i.partition rg.2.1 rg.2.2 true
        let memo := s.net.withdrawn.find? (fun w => w.1 == comm && w.2.1 == x.seq && (decide (65536 ≤ w.2.2.1) == isLocal)
          && decide (s.now < w.2.2.2 + 1000000000))
        if ok.2 = false ∨ fits = false then stop s x stCollInvalid noMember
        else if isLocal = false ∧ (s.onFabric = false ∨ allPorts.all (fun p => (s.port p).st != 2)) then stop s x stNetDown noMember
        else match memo with
          | some w => stop s x stCollWithdrawn (BitVec.ofNat 32 (if isLocal then w.2.2.1 - 65536 else members.idxOf w.2.2.1))
          | none =>
            let dl := ((List.range n).filter (fun k => x.expected k != 0)).map (fun k => (k, s.now + x.timeoutUs * 1000))
            let s := ownPart (add s { x with deadlines := dl }) x
            if isLocal then exchange s x
            else drainBuf (((List.range n).filter (fun j => j != rank)).foldl (fun s j => sendMsg s x j) s)
/-- The value of a reduced element: a sum in an open order, or the exact maximum or minimum. -/
def reduceElem (draw redop : Nat) (l : List W32) : W32 :=
  match redop, l with
  | 1, x :: t => t.foldl fmax x
  | 2, x :: t => t.foldl fmin x
  | _, _ => freeSum draw l
/-- The terms of an element, one per rank. -/
def Coll.termsAt (x : Coll) (n : Nat) : List W32 :=
  x.terms.flatMap (fun t => if t.2.1 ≤ n ∧ n < t.2.1 + t.2.2.length then [t.2.2.getD (n - t.2.1) 0] else [])
/-- The bytes of a result element, rounded once (R371). -/
def elemBytes (dtype : Nat) (v : W32) : List Byte := if dtype = 2 then natLe 2 (toBf16 (f32v v)).toNat else natLe 4 v.toNat
/-- A reduction's result is written, block by block. -/
def writeResult (s : State) (x : Coll) : State :=
  let per := 32 / Nat.max 1 x.esize
  let s' := (List.range (x.count / Nat.max 1 per)).foldl (fun s b =>
    let bs := (List.range per).flatMap (fun i =>
      elemBytes x.dtype (reduceElem (s.free + per * b + i) x.redop (x.termsAt (per * b + i))))
    let bad := x.bad.any (fun y => overlaps y.1 y.2 (per * b) per)
    s.viewWrite 0 1 (x.recv + 32 * b) bs bad) s
  s'.drew x.count
/-- Whether every DATA packet of an instance has been acknowledged. -/
def collAcked (s : State) (x : Coll) : Bool :=
  let mine (y : NetOut) : Bool := y.type == 1 && y.b == x.comm && bits y.a 32 32 == x.seq.toNat
  s.net.conns.all (fun c => !(c.waiting.any mine)
    && c.outstanding.all (fun o => !(s.net.out.any (fun y => mine y && y.peer == c.peer.toNat && y.conn == c.peerConn && y.psn == o.psn))))
/-- A finished COLL writes its status words, and its buffer is marked complete; a work item that has ended takes nothing. -/
def finishColl (s : State) (x : Coll) (st : BitVec 16) (member : W32) : State :=
  let s := { s with net := { s.net with
    colls := s.net.colls.filter (fun y => !(y.same x)), ended := if x.isLocal then s.net.ended else s.net.ended ++ [(x.comm, x.seq)] } }
  let k := s.core x.core
  let put (s : State) : State :=
    let s := s.csWrite x.core (x.desc.addr + 8) (natLe 8 (member.toNat * 2 ^ 32 + st.toNat))
    s.csWrite x.core (x.desc.addr + 48) (natLe 8 (x.paceUsed * 2 ^ 32 + x.timeoutUs))
  if k.item.any (fun i => i.fetchOrder == x.fetched) then
    match k.inflight.find? (fun e => e.ord == x.ord) with
    | some e =>
      let s := complete (put s) x.core e [x.desc] false false
      settle x.core (s.modCore x.core (fun k => { k with poisonSeen := k.poisonSeen || x.poison }))
    | none => s
  else match k.saved with
    | some v =>
      if v.item.fetchOrder = x.fetched ∧ v.inflight.any (fun e => e.ord == x.ord) then
        (put s).modCore x.core (fun k =>
          let b := ({ k with bufs := v.bufs } : Core).markWritten x.ord x.desc false false
          { k with saved := some { v with
              bufs := b.bufs, inflight := v.inflight.filter (fun e => e.ord != x.ord), poisonSeen := v.poisonSeen || x.poison } })
      else s
    | none => s
/-- COLL_COMPLETE: the instance has ended, or every message has landed and every packet sent is acknowledged. -/
def execCollComplete (c : CoreId) (idx : Fin 2) (s : State) : Out :=
  .next (
    match (s.net.colls.filter (fun x => x.core == c))[idx.val]? with
    | none => s
    | some x =>
      let s := drainBuf (exchange s x)
      match s.coll? x with
      | none => s
      | some x =>
        match x.status with
        | some (st, m) => finishColl s x st m
        | none =>
          let n := (collRanges x x.members.length).2.2
          let held := x.reduces && s.rangeHeld 0 1 x.recv n
          if x.whole = false ∨ (x.isLocal = false ∧ collAcked s x = false) ∨ (x.isLocal ∧ x.exchanged = false) ∨ held then s
          else if x.reduces ∧ linesLost s x.recv n then
            let s := failColl s x stDataPoison noMember
            finishColl s { x with poison := true } stDataPoison noMember
          else
            let s := if x.reduces then writeResult s x else s
            finishColl s x (if x.poison then stDataPoison else stOk) noMember)

/-! ## Scope 1 (R375, R378) -/

/-- Withdraw of scope 1 on every connection; local instances are ended by what stopped the towers. -/
def withdrawAll (s : State) : State :=
  s.net.conns.foldl (fun s c => if c.st = 2 then sendSeq s c.num (pktOf 5 1 0 []) else s) s
/-- The instances of local communicators that include a tower end (Table 13.9). -/
def towerWithdraw (s : State) (t : TowerId) : State :=
  (s.net.colls.filter (fun x => x.isLocal && x.members.contains t.val && x.status.isNone)).foldl (fun s x =>
    endColl s x stCollWithdrawn (BitVec.ofNat 32 (x.members.idxOf t.val))) s

end Sys2Proof.Machine
end

