-- ==== Sys2Proof/Machine/Issue.lean ====
section
/-! DEFINITION. QUEUE_ISSUE: the head of an issue queue issues (R94, R99-R103, R117-R122). -/

namespace Sys2Proof.Machine

/-- The head waits: its queue's stall counter counts the cycles (R103), whose number is free. -/
def stallHead (s : State) (c : CoreId) (q : Queue) : State :=
  (s.modCore c (fun k => { k with stalls := k.stalls.modify (queueIdx q) (fun n => satAdd n (Config.stallCycles s.free)) })).drew 1
/-- An instruction fails as it comes to issue. -/
def failIssue (s : State) (c : CoreId) (e : Entry) (st : BitVec 16) : State := s.setCore c ((s.core c).fault st e.pc)
/-- An instruction that issues and completes in one step. -/
def issueDone (s : State) (c : CoreId) (e : Entry) (f : Core → Core) : State :=
  s.modCore c (fun k => f { k with queues := k.queues.erase e })
/-- In-flight instructions of a queue. -/
def Core.flying (k : Core) (q : Queue) : Nat := (k.inflight.filter (fun e => e.queue == q)).length
/-- Whether an operation must have completed before a release (R122). -/
def released (o : Op) : Bool :=
  match o with
  | .move p => p.op == .store
  | .nblaunch _ => true
  | .nbflush _ _ => true
  | _ => false
/-- Whether every earlier MSTORE, NBLAUNCH and NBFLUSH has completed. -/
def Core.releases (k : Core) (e : Entry) : Bool := !(k.outstanding.any (fun x => decide (x.ord < e.ord) && released x.op))
/-- Whether an earlier move that is outstanding writes the range of a flush. -/
def Core.storesInto (k : Core) (ord view lo n : Nat) : Bool :=
  k.outstanding.any (fun x => decide (x.ord < ord) && match x.op with
    | .move p => p.op == .store && (match remoteParts p.remote with
      | some (v, a) => v == view && overlaps a p.remoteLen lo n
      | none => false)
    | _ => false)

/-- A tile load issues: the group's port is taken. -/
def issueLoad (s : State) (c : CoreId) (q : Queue) (e : Entry) (p : LoadP) : State :=
  let k := s.core c
  if loadReady k p = false then stallHead s c q
  else match loadFails k p with
    | some st => failIssue s c e st
    | none => s.setCore c ((k.issue e).modGroup p.group (fun g => { g with loading := some p }))
/-- A pass issues once the buffers it turns out to name are ready. -/
def issueReadyPass (s : State) (c : CoreId) (q : Queue) (e : Entry) (p : PassP) : State :=
  let k := s.core c
  let b := passBuffers s c p
  let named : Entry := { e with reads := b.1, writes := b.2 }
  if passReady k p = false ∨ k.ready named = false then stallHead s c q
  else if b.1.any (fun n => match k.buffer n with | some x => x.st == .empty | none => false) then failIssue s c e stBufEmpty
  else issuePass s c e p
/-- Whether a launch waits at the head of NB: the core's last one has not been admitted, or a unit runs and holds a pending launch. -/
def launchWaits (s : State) (c : CoreId) (p : LaunchP) : Bool :=
  s.slices.any (fun x => x.2.launches.any (fun l => l.req.core == c && !l.admitted))
  || (maskUnits p.mask).any (fun u => (s.unit p.target u).active && (s.unit p.target u).pendingLaunch.isSome)
/-- NBLAUNCH issues: the launch goes to its slice. -/
def issueLaunch (s : State) (c : CoreId) (q : Queue) (e : Entry) (p : LaunchP) : State :=
  let k := s.core c
  if nbTargetBad s p.part p.tgt then failIssue s c e stNbTarget
  else match rngFails k p.st 1 true with
    | some st => failIssue s c e st
    | none =>
      if p.mask = 0 then complete (s.setCore c (k.issue e)) c e [p.st] false false
      else if 4 ≤ (k.inflight.filter (fun x => match x.op with | .nblaunch _ => true | _ => false)).length ∨ launchWaits s c p then stallHead s c q
      else
        let n := (s.slice p.target).nextLaunch
        let l : Launch := { id := n, req := p, ord := e.ord, admitted := false, timingLogged := false, prog := [], args := [], windows := [],
                            final := [] }
        (s.setCore c (k.issue e)).modSlice p.target (fun x => { x with launches := x.launches ++ [l], nextLaunch := n + 1 })
/-- NBFLUSH issues and completes once earlier moves into the range have completed and no channel holds its entries. -/
def issueFlush (s : State) (c : CoreId) (q : Queue) (e : Entry) (addr len : W64) : State :=
  let k := s.core c
  match remoteParts addr with
  | none => failIssue s c e stMoveAddr
  | some (v, a) =>
    let l := flushList s c v a len.toNat
    if k.storesInto e.ord v a len.toNat ∨ l.any (fun x => s.chanHolds x.1 x.2.1) then stallHead s c q
    else
      let s := l.foldl (fun s x => s.flushEntry x.1 (idxCoord x.2.2.blk) x.2.2) s
      issueDone s c e id
/-- The number of the tower that holds a semaphore. -/
def semTower (n : Nat) : Nat := n / 4096
/-- The effect of a head that is ready (R99). -/
def issueOp (s : State) (c : CoreId) (q : Queue) (e : Entry) : State :=
  let k := s.core c
  match e.op with
  | .tload p => issueLoad s c q e p
  | .pass p _ => issueReadyPass s c q e p
  | .fcfg g cfg => issueDone s c e (fun k => k.modGroup g (fun x => { x with feed := some cfg }))
  | .dcfg g cfg => issueDone s c e (fun k => k.modGroup g (fun x => { x with drain := some cfg }))
  | .ocfg g (some cfg) => issueLoad s c q e (outlierLoad g cfg)
  | .ocfg g none => issueDone s c e (fun k => k.modGroup g (fun x => { x with outlier := none }))
  | .scfg g cfg => issueDone s c e (fun k => k.modGroup g (fun x => { x with sound := cfg }))
  | .vec p =>
    if 2 ≤ k.flying .vec then stallHead s c q
    else match vecFails k p with
      | some st => failIssue s c e st
      | none => s.setCore c (k.issue e)
  | .move p =>
    if moveReady k p = false then stallHead s c q
    else match moveFails s c k.partOf p with
      | some st => failIssue s c e st
      | none => s.setCore c (k.issue e)
  | .nblaunch p => issueLaunch s c q e p
  | .nbflush a n => issueFlush s c q e a n
  | .nbinv b => issueDone s c e (fun k => k.markSet e.ord b .empty)
  | .bufstate b st => issueDone s c e (fun k => k.markSet e.ord b st)
  | .semadd n v =>
    if k.releases e = false then stallHead s c q
    else if s.fencedTowers.contains (semTower n) then failIssue s c e stSemFenced
    else issueDone (s.setSem n (s.sem n + v)) c e id
  | .cntadd n v mask =>
    if k.busyIn e.ord mask then stallHead s c q
    else issueDone s c e (fun k => { k with counters := k.counters.modify n.val (· + v) })
  | .coll r =>
    if k.releases e = false ∨ 2 ≤ k.flying .col then stallHead s c q
    else match collFails k r, k.item with
      | some st, _ => failIssue s c e st
      | none, some i => startColl (s.setCore c (k.issue e)) c e i r
      | none, none => s
/-- Whether a head reads an EMPTY buffer (R100). BUFSTATE reads no contents, and a pass names its buffers as it issues. -/
def readsEmpty (k : Core) (e : Entry) : Bool :=
  match e.op with
  | .bufstate _ _ => false
  | .pass _ _ => false
  | _ => e.reads.any (fun n => match k.buffer n with | some b => b.st == .empty | none => false)
/-- QUEUE_ISSUE: the head of a queue issues when it is ready, or waits; an EMPTY buffer to read fails it (R100). -/
def execQueueIssue (c : CoreId) (q : Queue) (s : State) : Out :=
  .next (
    let k := s.core c
    match (k.queued q).head? with
    | none => s
    | some e =>
      if k.item.isNone ∨ k.paused ∨ k.mode ≠ .run then s
      else if k.ready e = false then stallHead s c q
      else if readsEmpty k e then settle c (failIssue s c e stBufEmpty)
      else settle c (issueOp s c q e))

end Sys2Proof.Machine
end

