-- ==== Sys2Proof/Machine/Sched.lean ====
section
/-! DEFINITION. The tower schedulers' queues: filling, pre-emption, rotation, requeueing, outcomes (R383-R391, R399). -/

namespace Sys2Proof.Machine

/-- Whether a core can be given work: not fenced, in no fenced tower, its scheduler not held down (R400). -/
def State.takesWork (s : State) (n : Nat) : Bool :=
  !(s.core (Fin.ofNat 512 n)).fenced && !(s.fencedTowers.contains (n / 64 % 8)) && (s.proc (2 + n / 64 % 8)).st != .heldDown
/-- The cores a work item may be given: those of its range, or of its partition when none of its range is left (R384, R387). -/
def eligible (s : State) (i : WorkItem) : List Nat :=
  let p := (s.part i.partition).cores.filter s.takesWork
  let r := if i.coreCount = 0 then p else p.filter (fun n => decide (i.firstCore ≤ n) && decide (n < i.firstCore + i.coreCount))
  if r.isEmpty then p else r
/-- The core with the fewest queued work items, ties to the lowest number. -/
def fewest (s : State) : List Nat → Option Nat
  | [] => none
  | n :: t =>
    match fewest s t with
    | some m =>
      let a := (s.core (Fin.ofNat 512 n)).localQ.length
      let b := (s.core (Fin.ofNat 512 m)).localQ.length
      some (if a < b ∨ (a = b ∧ n < m) then n else m)
    | none => some n
/-- The order in which a scheduler takes work items (R384). -/
def takesFirst (s : State) (a b : WorkItem) : Bool :=
  let pr (i : WorkItem) : Nat := match s.ctx? i.context with | some x => x.priority.toNat | none => 0
  if a.priority ≠ b.priority then decide (b.priority.toNat < a.priority.toNat)
  else if pr a ≠ pr b then decide (pr b < pr a)
  else decide (a.fetchOrder < b.fetchOrder)
/-- A work item as its scheduler hands it out: the arguments of the level in force (R154) and of the committed table (R300). -/
def handOut (s : State) (t : TowerId) (i : WorkItem) : WorkItem :=
  let arg := match s.ctx? i.context with | some x => levelArgs s t x i.argAddr | none => i.argAddr
  match s.tables.find? (fun b => b.ctx == i.context && (b.arg0 == arg || b.arg1 == arg)) with
  | some b => { i with argAddr := if b.committed then b.arg1 else b.arg0, table := some (b.id, b.version) }
  | none => { i with argAddr := arg }
/-- QUEUE_FILL: the first eligible work item whose core lies in the tower and has a free queue slot is placed. -/
def execQueueFill (t : TowerId) (s : State) : Out :=
  .next (
    if s.procUp (2 + t.val) = false ∨ s.err.safe then s
    else
      let places := (sortBy (takesFirst s) s.sched.waiting).filterMap (fun i =>
        match fewest s (eligible s i) with
        | some n => if n / 64 = t.val ∧ (s.core (Fin.ofNat 512 n)).localQ.length < 16 then some (i, n) else none
        | none => none)
      match places with
      | [] => s
      | (i, n) :: _ =>
        let s' := { s with sched := { s.sched with waiting := s.sched.waiting.erase i } }
        s'.modCore (Fin.ofNat 512 n) (fun k => { k with localQ := k.localQ ++ [handOut s t i] }))
/-- PRIORITY_PREEMPT: a queued work item of a priority at least preempt_delta higher pre-empts; it runs next (R385). -/
def execPriorityPreempt (c : CoreId) (s : State) : Out :=
  .next (
    let k := s.core c
    let delta := s.fw.preemptDelta.toNat
    match k.item with
    | some i =>
      match k.localQ.find? (fun j => decide (i.priority.toNat + delta ≤ j.priority.toNat)) with
      | some j =>
        if s.procUp (2 + (towerOf c).val) = false ∨ delta = 0 ∨ i.preemptible = false ∨ k.saved.isSome ∨ k.paused then s
        else
          let s := s.setCore c { k with localQ := j :: k.localQ.erase j }
          if k.groups.any groupRetrying then s.modCore c (fun k => { k with preemptPending := true }) else preempt 1 s c
      | none => s
    | none => s)
/-- The coolest of a list of cores with a free queue slot: by protection reading, then by number. -/
def coolest (s : State) : List Nat → Option Nat
  | [] => none
  | n :: t =>
    match coolest s t with
    | some m => if prot s (.core (Fin.ofNat 512 n)) ≤ prot s (.core (Fin.ofNat 512 m)) then some n else some m
    | none => some n
/-- ROTATE_WORK: a hot core's next movable work item goes to the coolest equal core, in its own tower first (R391). -/
def execRotateWork (c : CoreId) (s : State) : Out :=
  .next (
    let k := s.core c
    match k.localQ.find? (fun i => i.movable) with
    | none => s
    | some i =>
      if k.hot = false ∨ s.fw.rotateEn = false ∨ s.procUp (2 + (towerOf c).val) = false then s
      else
        let ok := ((List.range 512).filter (fun n => decide (i.eqFirst ≤ n) && decide (n < i.eqFirst + i.eqCount) && n != c.val
          && s.takesWork n && (s.part i.partition).cores.contains n && decide ((s.core (Fin.ofNat 512 n)).localQ.length < 16)))
        let near := ok.filter (fun n => n / 64 == c.val / 64)
        let far := ok.filter (fun n => s.procUp (2 + n / 64))
        match coolest s (if near.isEmpty then far else near) with
        | none => s
        | some n =>
          let s := s.setCore c { k with localQ := k.localQ.erase i }
          let s := s.modCore (Fin.ofNat 512 n) (fun x => { x with localQ := x.localQ ++ [i] })
          { s with fw := { s.fw with rotations := satAdd s.fw.rotations 1 } })
/-- The work items of a core that have not started go back to the schedulers. -/
def requeue (s : State) (c : CoreId) : State :=
  let k := s.core c
  let back := k.localQ.map (fun (i : WorkItem) => { i with firstCore := i.eqFirst, coreCount := i.eqCount })
  { s.setCore c { k with localQ := [] } with sched := { s.sched with waiting := s.sched.waiting ++ back } }
/-- CORE_FENCE_REQUEUE. -/
def execCoreFenceRequeue (c : CoreId) (s : State) : Out :=
  .next (if (s.core c).fenced ∧ s.tsServes (towerOf c).val then requeue s c else s)

/-! ## Outcomes (R127, R135, R276, R300, R390) -/

/-- A work item's place in its table's rebuild: a builder that succeeds, or fails; an old user that is done. -/
def noteTable (s : State) (o : WorkOutcome) : State :=
  let built (b : Table) : Table :=
    if o.item.builderOf = some b.id ∧ o.item.context = b.ctx ∧ b.st = .building then
      (if o.status = stOk then { b with builders := b.builders - 1 } else { b with failed := true })
    else b
  let drained (b : Table) : Table :=
    match o.item.table with
    | some (id, v) => if id = b.id ∧ b.st = .draining ∧ v ≠ b.version then { b with oldUsers := b.oldUsers - 1 } else b
    | none => b
  { s with tables := s.tables.map (fun (b : Table) => drained (built b)) }
/-- A work item's place in its step: one fewer open, the first failure kept. -/
def noteStep (o : WorkOutcome) (p : W32 × Nat × Nat) (r : StepRun) : StepRun :=
  { r with
    openItems := r.openItems.map (fun x => if x.1 = p.2.1 ∧ x.2.1 = p.2.2 then (x.1, x.2.1, x.2.2 - 1) else x)
    failed := if r.failed.isNone ∧ o.status ≠ stOk then some (o.status, o.item.workItem, o.index) else r.failed
    poison := r.poison || o.poison }
/-- An outcome is taken: totals, pins, tails, tables, then the record of a WORK item or the progress of a step. -/
def takeOutcome (s : State) (t : TowerId) (o : WorkOutcome) : State :=
  let i := o.item
  let s := unpin (addTotals s t o) i
  let s := if o.status = stOk then i.tails.foldl (fun (s : State) (k : PageKey) => s.modPage k (fun (p : Page) => { p with tailDue := true })) s else s
  let s := ((i.pages.map (fun k => k.seqId)).eraseDups).foldl (fun s q => settleEnd s i.context q) s
  let s := noteTable s o
  let s := match i.stepPhase with
    | some p => settleStep (modStep s i.context (p.1, i.peer) (noteStep o p)) i.context (p.1, i.peer)
    | none => s.record i.context (i.seq, i.peer) o.status i.tag i.workItem o.index o.core.val o.poison
  settleClose s i.context
/-- WORK_ITEM_END: the tower scheduler, or one that took over, takes the oldest outcome of its tower. -/
def execWorkItemEnd (t : TowerId) (s : State) : Out :=
  .next (
    if s.tsServes t.val = false then s
    else match s.sched.outcomes.find? (fun o => towerOf o.core == t) with
      | none => s
      | some o => takeOutcome { s with sched := { s.sched with outcomes := s.sched.outcomes.erase o } } t o)

end Sys2Proof.Machine
end

