-- ==== Sys2Proof/Machine/Firmware.lean ====
section
/-! DEFINITION. Firmware processors: restarts, dumps, hold-down, images, waking (R394-R406). -/

namespace Sys2Proof.Machine

/-- The number of a restart cause (Table 14.4). -/
def causeOf : RestartCause → Nat
  | .watchdog => 1
  | .parity => 2
  | .assertion => 3
/-- Restarts of a processor within the last 10 s. -/
def recentRestarts (s : State) (p : Nat) : List Nat := (s.proc p).restartTimes.filter (fun t => decide (s.now < t + 10000000000))
/-- The dump slot that a restart writes (R397): one never written or acknowledged, else the older; whether a dump is lost. -/
def dumpSlotFor (p : Proc) : Nat × Bool :=
  let a := p.dumps.getD 0 Dump.reset
  let b := p.dumps.getD 1 Dump.reset
  if a.valid = false then (0, false) else if b.valid = false then (1, false)
  else if a.stamp ≤ b.stamp then (0, true) else (1, true)
/-- Rollback value and bundle version of the running slot. -/
def bundleWord (f : Fw) : W64 := if f.running then f.rollB ++ f.bundleB else f.rollA ++ f.bundleA
/-- Steps 2 and 3 of a restart: counts, record, dump; then held in reset for the image check, or held down (R396, R400). -/
def restartProc (s : State) (p : Nat) (cause : Nat) : State :=
  let x := s.proc p
  let src := srcProc p
  let times := s.now :: recentRestarts s p
  let seq := (s.err.srcBuf src).seq
  let slot := dumpSlotFor x
  let dump : Dump := { valid := true, island := some (islandTime s src), bundle := bundleWord s.fw, stamp := s.now, cause := cause,
                       seq := seq, restarts := x.total.toNat + 1, archived := false }
  let held := decide (3 ≤ times.length)
  let lost := if slot.2 ∧ x.dumpLost ≠ 0xFFFF then x.dumpLost + 1 else x.dumpLost
  let s := s.modProc p (fun x => { x with
    st := (if held then .heldDown else .restarting), restartTimes := times, causes := (cause :: x.causes).take 3,
    total := (if x.total = 0xFFFF then x.total else x.total + 1), dumps := x.dumps.set slot.1 dump, dumpLost := lost, seq := seq })
  let s := s.log fwRestart src (locProc p) 0 none [w64 p, w64 cause, w64 times.length, w64 slot.1]
  let s := if slot.2 then s.log fwDumpLost src (locProc p) 0 none [w64 p, lost.setWidth 64] else s
  if held then s.log fwHeldDown src (locProc p) 0 none (w64 p :: w64 (s.proc p).causes.length :: ((s.proc p).causes.map w64)) else s
/-- A processor that can restart: it runs, or it is being restarted (Table 14.7). -/
def canRestart (s : State) (p : Nat) : Bool :=
  (s.start.phase == .booted || s.start.phase == .service) && ((s.proc p).st == .running || (s.proc p).st == .restarting)
/-- With its NP held down, the ports of an IO die leave the spraying set (R400). -/
def npHeld (s : State) (die : Nat) : State :=
  (allPorts.filter (fun p => s.portDie p == some die)).foldl portDown s

/-- A word of a dump: its header (Table 14.4), then contents that the spec does not describe. -/
def dumpWordAt (p : Nat) (d : Dump) (i : Nat) : W64 :=
  match i with
  | 0 => w64 (0x44574D50 * 2 ^ 32 + 1 * 2 ^ 24 + d.cause * 2 ^ 16 + p * 2 ^ 12)
  | 1 => w64 (d.island.getD 0)
  | 2 => d.seq ++ BitVec.ofNat 32 d.restarts
  | 3 => d.bundle
  | 5 | 6 | 7 => 0
  | _ => Config.dumpWord (16 * d.restarts + p) i 1 ++ Config.dumpWord (16 * d.restarts + p) i 0
/-- DUMP_ARCHIVE: the MP copies a dump into the flash archive, newest first. -/
def execDumpArchive (p : ProcId) (slot : Fin 2) (s : State) : Out :=
  .next (
    let d := (s.proc p.val).dumps.getD slot.val Dump.reset
    if s.mpUp = false ∨ d.island.isNone ∨ d.archived then s
    else
      let s := s.modProc p.val (fun x => { x with dumps := x.dumps.set slot.val { d with archived := true } })
      { s with fw := { s.fw with archive := (p.val, d) :: s.fw.archive } })
/-- A write of FW_DUMP_ACK: the slot is free. -/
def dumpAck (s : State) (v : W32) : State :=
  let slot := bits v 4 1
  s.modProc (bits v 0 4) (fun x => { x with
    dumps := x.dumps.set slot { x.dumps.getD slot Dump.reset with valid := false } })
/-- A record of a refused write: register offset and value (R15, R190, R401). -/
def cfgReject (s : State) (src : Source) (st : BitVec 16) (off : Nat) (v : W32) : State :=
  s.log errCfgReject src 0 st none [w64 off, v.setWidth 64]
/-- A write of FW_HOLD_CLEAR: a held-down TS or NP restarts from step 4; any other value is ignored and reported (R401). -/
def holdClear (s : State) (src : Source) (off : Nat) (v : W32) : State :=
  let p := bits v 0 4
  if 2 ≤ p ∧ p < 12 ∧ (s.proc p).st = .heldDown then
    let s := s.modProc p (fun x => { x with st := .restarting, restartTimes := [] })
    s.log fwHoldCleared (srcProc p) (locProc p) 0 none [w64 p]
  else cfgReject s src stCfgRange off v
/-- A write of 1 to FW_IMAGE_CTL.commit while on trial: the running slot is committed and the rollback counter rises (R394). -/
def imageCommit (s : State) : State :=
  if s.fw.trial = false then s
  else
    let roll := if s.fw.running then s.fw.rollB else s.fw.rollA
    { s with fw := { s.fw with committed := s.fw.running, trial := false },
             sec := { s.sec with rollback := if s.sec.rollback.ult roll then roll else s.sec.rollback } }
/-- Step 4 to 6 of a restart, when the SP can check the image: the processor is back (R395, R402). A replay that does not end leaves
it restarting. -/
def resumeProc (s : State) (p : Nat) (imageOk journalOk : Bool) : State :=
  if (s.proc p).st ≠ .restarting ∨ (p ≠ 1 ∧ (s.proc 1).st ≠ .running) ∨ journalOk = false then s
  else
    let s := s.modProc p (fun x => { x with st := .running })
    if imageOk then s else s.log fwImageReload (srcProc p) (locProc p) 0 none [w64 p, 1, 0]
/-- PROCESSOR_WAKE: a message wakes a processor in retention (R406). -/
def execProcessorWake (p : ProcId) (s : State) : Out :=
  .next (if (s.proc p.val).st = .retention then s.modProc p.val (fun x => { x with st := .running }) else s)

end Sys2Proof.Machine
end

