-- ==== Sys2Proof/Machine/Power.lean ====
section
/-! DEFINITION. Rails, AVSBus and the power cap (R405-R418). -/

namespace Sys2Proof.Machine

/-- The state with a stage changed. -/
def State.modStage (s : State) (n : StageId) (f : Stage → Stage) : State :=
  { s with pwr := { s.pwr with stages := s.pwr.stages.modify n.val f } }
/-- Cores that stood at their old ceiling and are cool rise to the one in force (R415 step 4, R418). -/
def liftClocks (old : CoreId → Nat) (cs : List CoreId) (s : State) : State :=
  cs.foldl (fun (s : State) (c : CoreId) =>
    if (s.core c).q = old c ∧ old c < qLimit s c ∧ predP s (.core c) < 428 then setRate s c (qLimit s c) else s) s
/-- Cores above their ceiling are stretched at once (R415, R418). -/
def stretchClocks (cs : List CoreId) (s : State) : State :=
  cs.foldl (fun (s : State) (c : CoreId) => if qLimit s c < (s.core c).q then setRate s c (qLimit s c) else s) s
/-- Whether some core of a tower may want a clock above what its rail supports and is not hot. -/
def raiseNeeded (s : State) (t : TowerId) : Bool :=
  (towerCores t).any (fun c => decide (supportedQ (s.stage (stageOf t)).setpoint < qWant s c)
    && decide (hotter (prot s (.core c)) (predP s (.core c)) < 440))
/-- A raise that waits is cancelled when it is no longer needed (Table 15.6). -/
def cancelRaise (s : State) (t : TowerId) : State :=
  let x := s.stage (stageOf t)
  if (x.pending.isSome ∨ x.queued.isSome) ∧ raiseNeeded s t = false then
    s.modStage (stageOf t) (fun x => { x with pending := none, queued := none })
  else s
/-- The lowest rail that covers every island of a tower (R414); the islands of a fast stop are to return at q = 8 (R432). -/
def coverRail (s : State) (t : TowerId) : Nat :=
  railOf ((towerCores t).foldl (fun acc c => Nat.max acc (let k := s.core c; if k.fastStopped then 8 else k.q)) 4)
/-- The rail follows its islands down; lowering waits for nothing (R415). -/
def lowerRail (s : State) (t : TowerId) : State :=
  let x := s.stage (stageOf t)
  if x.on ∧ x.held = false ∧ x.pending = none ∧ coverRail s t < x.setpoint then
    s.modStage (stageOf t) (fun x => { x with setpoint := coverRail s t })
  else s

/-- AVS_RAISE: one request per stage is in flight, another waits behind it (R415, Table 15.6). -/
def execAvsRaise (n : StageId) (millivolts : Nat) (s : State) : Out :=
  .next (
    let x := s.stage n
    if s.mpUp = false ∨ 8 ≤ n.val ∨ x.on = false ∨ x.held ∨ ¬(millivolts ∈ [670, 730, 800]) ∨ millivolts ≤ x.setpoint then s
    else if x.pending.isSome then s.modStage n (fun x => { x with queued := some millivolts })
    else s.modStage n (fun x => { x with pending := some millivolts, fails := 0, since := s.now }))
/-- AVS_ACK: the setpoint holds; islands ramp, then clocks that their rail held back rise. -/
def execAvsAck (n : StageId) (s : State) : Out :=
  .next (
    let x := s.stage n
    match x.pending with
    | some v =>
      if s.mpUp = false then s
      else
        let t : TowerId := Fin.ofNat 8 n.val
        let old := qLimit s
        let s := s.modStage n (fun x => { x with setpoint := v, pending := x.queued, queued := none, fails := 0, since := s.now })
        liftClocks old (towerCores t) s
    | none => s)
/-- AVS_ACK_TIMEOUT: 1 ms without an acknowledgement; after the third failure the stage is held at its setpoint. -/
def execAvsAckTimeout (n : StageId) (s : State) : Out :=
  .next (
    let x := s.stage n
    match x.pending with
    | some v =>
      if s.mpUp = false ∨ s.now < x.since + 1000000 then s
      else if x.fails < 2 then s.modStage n (fun x => { x with fails := x.fails + 1, since := s.now })
      else
        let s := s.modStage n (fun x => { x with pending := none, queued := none, fails := 0, held := true })
        let s := s.log pwrAvsTimeout srcMp (locDie n.val) 0 none [w64 n.val, w64 v, w64 x.setpoint]
        stretchClocks (towerCores (Fin.ofNat 8 n.val)) s
    | none => s)

/-! ## Power cap (R417, R418) -/

/-- The lowest q that a held stage supports. -/
def heldQ (s : State) : Nat :=
  (s.pwr.stages.take 8).foldl (fun acc (x : Stage) => if x.held then Nat.min acc (supportedQ x.setpoint) else acc) 16
/-- The effective cap and which limit sets it: 0 cap_w, 1 coolant, 2 IO die. -/
def effectiveCap (s : State) : Nat × Nat :=
  let a := (s.pwr.capW.toNat, 0)
  let w := s.thm.limitMw / 1000
  let b := if w < a.1 then (w, 1) else a
  s.pwr.ioLimit.foldl (fun (b : Nat × Nat) (x : Option Nat) => match x with | some w => if w < b.1 then (w, 2) else b | none => b) b
/-- The mean of a list of samples. -/
def meanOf (l : List Nat) : Nat := l.sum / Nat.max 1 l.length
/-- The new clock ceiling: below the present one, at least 4, while the mean stands above the cap; else from the present one up to 16.
How far it moves is a free value. -/
def nextCeiling (above : Bool) (q draw : Nat) : Nat :=
  if above then (if 4 < q then 4 + Config.choice draw % (q - 4) else 4) else q + Config.choice draw % (17 - q)
/-- All cores. -/
def everyCore : List CoreId := (List.range 512).map (fun n => Fin.ofNat 512 n)
/-- CAP_SAMPLE: the MP measures package power and sets the effective cap and the clock ceiling; rails follow down. -/
def execCapSample (powerW : Nat) (s : State) : Out :=
  .next (
    if s.mpUp = false then s
    else
      let l := (powerW :: s.pwr.samples).take 10
      let mean := Nat.min 4095 (meanOf l)
      let eff := effectiveCap s
      let q := s.pwr.qMax
      let q' := nextCeiling (decide (eff.1 < mean)) q s.free
      let cause := if heldQ s < q' then 3 else eff.2
      let old := qLimit s
      let s := s.drew 1
      let s := { s with pwr := { s.pwr with samples := l, meanW := mean, effective := eff.1, cause := cause, qMax := q' } }
      let s := if q' < q then stretchClocks everyCore s else if q < q' then liftClocks old everyCore s else s
      let s := ([0, 1, 2, 3, 4, 5, 6, 7] : List TowerId).foldl lowerRail s
      let due : Bool := match s.pwr.lastCapLog with | some t => decide (t + 1000000000 ≤ s.now) | none => true
      if q' < 16 ∧ due then
        ({ s with pwr := { s.pwr with lastCapLog := some s.now } }).log pwrCapLimit srcMp 0 0 none [w64 cause, w64 q', w64 eff.1]
      else s)

end Sys2Proof.Machine
end

