-- ==== Sys2Proof/Machine/Thermal.lean ====
section
/-! DEFINITION. Thermal responses, fast stops, the model, coolant (R421-R443). Temperatures are in 0.25 °C, coolant in 0.01 °C. -/

namespace Sys2Proof.Machine

/-- The hardware controller of a hot spot's die. -/
def spotSrc (h : HotSpot) : Source := match h with | .io d _ => srcIo d.val | _ => match spotTower h with | some t => srcBase t | none => srcMp
/-- The number of a sensor in a location word (Table 16.7). -/
def locSpot (h : HotSpot) : W64 := locSensor (match sensorsOf h with | x :: _ => sensorKey x | [] => 0)

/-! ## Sensors (R421-R424) -/

/-- The mean of the neighbours' protection readings. -/
def nearMean (s : State) (h : HotSpot) : Int :=
  let l := (neighbours h).map (protTo s 1)
  l.foldl (· + ·) 0 / (Nat.max 1 l.length : Nat)
/-- The model's prediction for the present moment: the newest one published at least 5 ms ago. -/
def modelNow (s : State) (h : HotSpot) : Option Int :=
  ((s.spot h).past.find? (fun x => decide (x.1 + 5000000 ≤ s.now))).map (fun x => x.2)
/-- A difference that is not negative, as a Nat. -/
def posPart (x : Int) : Nat := x.toNat
/-- The size of a difference. -/
def gap (a b : Int) : Int := if a < b then b - a else a - b
/-- Whether a hot spot's sensors disagree: a pair by more than 4 °C, a single one by more than 6 °C from both the model and its neighbours,
which agree within 3 °C. -/
def disagrees (s : State) (h : HotSpot) : Bool :=
  match sensorsOf h with
  | [a, b] => decide (16 < gap (s.sensor a).reading (s.sensor b).reading)
  | [a] =>
    (match modelNow s h with
      | some m =>
        let r := (s.sensor a).reading
        let n := nearMean s h
        decide (24 < gap r m) && decide (24 < gap r n) && decide (gap m n ≤ 12)
      | none => false)
  | _ => false
/-- Whether they agree: a pair within 2 °C, a single one when it does not disagree. -/
def agrees (s : State) (h : HotSpot) : Bool :=
  match sensorsOf h with
  | [a, b] => decide (gap (s.sensor a).reading (s.sensor b).reading ≤ 8)
  | _ => !disagrees s h
/-- A time that a condition has held since. -/
def since (ok : Bool) (was : Option Nat) (now : Nat) : Option Nat := if ok then (match was with | some t => some t | none => some now) else none
/-- A history with a new member, kept back to one member at least `span` old. -/
def keepHistory (span now : Nat) (x : Int) (l : List (Nat × Int)) : List (Nat × Int) :=
  (now, x) :: (l.takeWhile (fun y => decide (now < y.1 + span)) ++ (l.dropWhile (fun y => decide (now < y.1 + span))).take 1)
/-- A conversion as its sensor takes it: none, or one outside −40 to 150 °C, fails a single sensor (R424). -/
def takeReading (s : State) (x : SensorId) (v : Option Int) : State :=
  let h := spotOf x
  let bad : Bool := match v with | some t => decide (t < -160) || decide (600 < t) | none => true
  let single := (sensorsOf h).length = 1
  let s := match v with | some t => s.modSensor x (fun y => { y with reading := t }) | none => s
  if single ∧ bad ∧ (s.sensor x).st ≠ 2 then
    let s := s.modSensor x (fun y => { y with st := 2 })
    s.log thmSensorFailed (spotSrc h) (locSensor (sensorKey x)) 0 none
      [w64 (sensorKey x), i64 (s.sensor x).reading, i64 (predP s h), i64 (nearMean s h)]
  else s
/-- The hot spot's own notes after a sample. -/
def noteSample (s : State) (h : HotSpot) : State :=
  let t := prot s h
  let dis := disagrees s h
  let ok := agrees s h
  let s := s.modSpot h (fun x => { x with
    history := keepHistory 1000000 s.now t x.history
    disagree := since dis x.disagree s.now
    judged := x.judged && dis
    agree := since ok x.agree s.now })
  let cool := predP s h < 428
  s.modSpot h (fun x => { x with coolSince := since cool x.coolSince s.now })

/-- A sensor becomes suspect; the third time within one hour it fails (R423). -/
def suspectSensor (s : State) (h : HotSpot) (x : SensorId) : State :=
  let recent := (s.sensor x).suspects.filter (fun t => decide (s.now < t + 3600000000000))
  let fails := decide (2 ≤ recent.length)
  let s := s.modSensor x (fun y => { y with st := (if fails then 2 else 1), suspects := s.now :: recent })
  s.log (if fails then thmSensorFailed else thmSensorSuspect) (spotSrc h) (locSensor (sensorKey x)) 0 none
    [w64 (sensorKey x), i64 (s.sensor x).reading, i64 ((modelNow s h).getD 0), i64 (nearMean s h)]
/-- SENSOR_DISAGREE: sensors that have disagreed for more than 10 ms are judged once. -/
def execSensorDisagree (h : HotSpot) (s : State) : Out :=
  .next (
    let x := s.spot h
    match x.disagree with
    | some t =>
      if s.now ≤ t + 10000000 ∨ x.judged ∨ (sensorsOf h).any (fun y => (s.sensor y).st != 0) then s
      else
        let s := s.modSpot h (fun x => { x with judged := true })
        match sensorsOf h with
        | [a, b] =>
          let n := nearMean s h
          let d (y : SensorId) : Int :=
            let r := (s.sensor y).reading
            (match modelNow s h with | some m => gap r m | none => 0) + gap r n
          if d b + 8 ≤ d a then suspectSensor s h a
          else if d a + 8 ≤ d b then suspectSensor s h b
          else s.log thmDisagree (spotSrc h) (locSpot h) 0 none
            [w64 (sensorKey a), w64 (sensorKey b), i64 (s.sensor a).reading, i64 (s.sensor b).reading, i64 (prot s h)]
        | [a] => suspectSensor s h a
        | _ => s
    | none => s)
/-- SENSOR_RETURN: after 10 s of agreement a suspect sensor returns to service. -/
def execSensorReturn (h : HotSpot) (s : State) : Out :=
  .next (
    match (s.spot h).agree with
    | some t =>
      if t + 10000000000 ≤ s.now then
        (sensorsOf h).foldl (fun (s : State) (x : SensorId) =>
          if (s.sensor x).st = 1 then s.modSensor x (fun y => { y with st := 0 }) else s) s
      else s
    | none => s)

/-! ## The clock law, pre-throttle, hot marks (R428-R434) -/

/-- The cores a hot spot's clock responses act on: its own, or those of its tower for a base die. -/
def spotCores : HotSpot → List CoreId
  | .core c => [c]
  | .layer c _ => [c]
  | .base t _ => towerCores t
  | .io _ _ => []
/-- One clock step down on cores that run. -/
def stepDown (cs : List CoreId) (s : State) : State :=
  cs.foldl (fun (s : State) (c : CoreId) => if 4 < (s.core c).q then setRate s c ((s.core c).q - 1) else s) s
/-- The base-die hot spots of a tower. -/
def baseSpots (t : TowerId) : List HotSpot := ([0, 1, 2, 3] : List (Fin 4)).map (.base t)
/-- Whether a hot spot has stood below 107 °C for 1 ms and its last step up was 1 ms ago. -/
def mayRise (s : State) (h : HotSpot) : Bool :=
  let x := s.spot h
  match x.coolSince with
  | some t => decide (t + 1000000 ≤ s.now) && decide (x.lastStep + 1000000 ≤ s.now)
  | none => false
/-- The clock law of a core or base-die hot spot (Table 16.2): down one step per 100 µs at 110 °C, up one per ms below 107 °C. -/
def clockLaw (s : State) (h : HotSpot) : State :=
  let x := s.spot h
  let hot := 440 ≤ hotter (prot s h) (predP s h)
  match h with
  | .layer _ _ => s
  | .io _ _ => s
  | .core c =>
    let k := s.core c
    if k.mode = .off ∨ k.mode = .retention then s
    else if hot then
      (if x.lastStep + 100000 ≤ s.now ∧ 4 < k.q then
        cancelRaise ((stepDown [c] s).modSpot h (fun y => { y with lastStep := s.now })) (towerOf c) else s)
    else if mayRise s h ∧ (baseSpots (towerOf c)).all (fun b => decide (predP s b < 428)) ∧ k.q < qLimit s c then
      (setRate s c (k.q + 1)).modSpot h (fun y => { y with lastStep := s.now })
    else s
  | .base t _ =>
    if hot ∧ x.lastStep + 100000 ≤ s.now then
      cancelRaise ((stepDown (towerCores t) s).modSpot h (fun y => { y with lastStep := s.now })) t
    else s
/-- Pre-throttle (R429): from r of 1.5 °C/ms until r has stood below 1.0 °C/ms for 1 ms; logged once per second and tower. -/
def preThrottle (s : State) (h : HotSpot) : State :=
  match spotTower h with
  | none => s
  | some t =>
    let x := s.spot h
    let r := rise s h
    match x.preThrottle with
    | none =>
      if r < 30 then s
      else
        let s := s.modSpot h (fun y => { y with preThrottle := some s.now })
        let s := cancelRaise (stretchClocks (spotCores h) s) t
        let due : Bool := match (s.tower t).lastPre with | some y => decide (y + 1000000000 ≤ s.now) | none => true
        if due then
          (s.modTower t (fun y => { y with lastPre := some s.now })).log thmPrethrottle (spotSrc h) (locSpot h) 0 none
            [w64 t.val, w64 ((towerCores t).filter (preThrottled s)).length, i64 r]
        else s
    | some y =>
      if 20 ≤ r then s.modSpot h (fun z => { z with preThrottle := some s.now })
      else if y + 1000000 ≤ s.now then s.modSpot h (fun z => { z with preThrottle := none })
      else s
/-- The hot mark of a core (R434): set by its own P or a layer in band 2, cleared 10 ms after both have fallen. -/
def hotMark (s : State) (c : CoreId) : State :=
  let k := s.core c
  let h : HotSpot := .core c
  let limit : Int := 440 - 4 * (s.thm.margin.toNat : Int)
  let p := predP s h
  let layers := allLayers.map (fun l => predP s (.layer c l))
  let failed := (sensorsOf h).all (fun x => (s.sensor x).st == 2)
  if limit ≤ p ∨ layers.any (fun x => decide (380 ≤ x)) ∨ failed then
    (s.setCore c { k with hot := true }).modSpot h (fun x => { x with hotCool := none })
  else if k.hot ∧ p ≤ limit - 12 then
    let cool := since true (s.spot h).hotCool s.now
    let done : Bool := match cool with | some t => decide (t + 10000000 ≤ s.now) | none => false
    if done then (s.setCore c { k with hot := false }).modSpot h (fun x => { x with hotCool := none })
    else s.modSpot h (fun x => { x with hotCool := cool })
  else s.modSpot h (fun x => { x with hotCool := none })
/-- The conditions under which a layer's band and its channel's step may fall, timed from this sample (R161, R165). -/
def noteLayer (s : State) (c : CoreId) (l : LayerId) : State :=
  let tp := layerTP s c l
  let ch := layerChan l
  let band := ((s.slice c).layer l).band
  let s := s.modLayer c l (fun y => { y with below := since (decide (hotter tp.1 tp.2 ≤ bandFloor band - 8)) y.below s.now })
  let all := (chanLayers ch).map (layerTP s c)
  let t := all.foldl (fun acc x => hotter acc (if s.mem.predict then hotter x.1 x.2 else x.1)) (-1000)
  s.modChan c ch (fun y => { y with stepLow := since (decide (t ≤ stepFloor s.mem.t1.toNat y.step - 4)) y.stepLow s.now })
/-- Whether a hot spot of a tower is cool enough for the release of a fast stop (R432). -/
def releaseCool (s : State) (h : HotSpot) : Bool :=
  let limit : Int := match h with | .layer _ _ => 360 | _ => 420
  decide (predP s h ≤ limit) && decide (rise s h < 20)
/-- A hot spot that is not cool starts its tower's 10 ms anew. -/
def noteRelease (s : State) (h : HotSpot) : State :=
  match spotTower h with
  | some t =>
    if (s.tower t).fastStop ∧ releaseCool s h = false then s.modTower t (fun x => { x with coolSince := some s.now }) else s
  | none => s
/-- What a controller does on a sample (R422, Table 16.2); an IO die's 115 °C is added in Safe.lean. -/
def sampleSensor (s : State) (x : SensorId) (v : Option Int) : State :=
  let h := spotOf x
  let s := noteSample (takeReading s x v) h
  let s := preThrottle s h
  let s := clockLaw s h
  let s := match h with
    | .core c => hotMark s c
    | .layer c l => hotMark (noteLayer s c l) c
    | _ => s
  noteRelease s h

/-! ## The model (R426, R427) -/

/-- A comparison of a prediction with the reading 5 ms later: the tenth excess in a row above 2 °C is added to later predictions, which
decay by 0.1 °C per comparison otherwise. -/
def compareModel (s : State) (h : HotSpot) : State :=
  match modelNow s h with
  | none => s
  | some old =>
    let excess := prot s h - old
    let x := s.spot h
    if excess ≤ 8 then s.modSpot h (fun y => { y with driftRun := 0, drift := if y.drift < 2 then 0 else y.drift - 2 })
    else if x.driftRun < 9 then s.modSpot h (fun y => { y with driftRun := y.driftRun + 1 })
    else
      let s := s.modSpot h (fun y => { y with driftRun := 0, drift := y.drift + 5 * excess })
      match spotTower h with
      | none => s.log thmModelDrift srcMp (locSpot h) 0 none [1, i64 excess]
      | some t =>
        let due : Bool := match (s.tower t).lastDrift with | some y => decide (y + 1000000000 ≤ s.now) | none => true
        if due then
          (s.modTower t (fun y => { y with lastDrift := some s.now })).log thmModelDrift srcMp (locSpot h) 0 none [1, i64 excess]
        else s
/-- MODEL_UPDATE: the MP compares its last predictions and publishes P for a hot spot. -/
def execModelUpdate (h : HotSpot) (predicted : Int) (s : State) : Out :=
  .next (
    if s.mpUp = false then s
    else
      let s := compareModel s h
      let p := predicted + ((s.spot h).drift + 4) / 5
      let s := s.modSpot h (fun x => { x with
        p := p, pAt := some s.now, r := p - prot s h, past := keepHistory 5000000 s.now p x.past })
      noteRelease s h)
/-- PREDICTION_STALE: the controller discards a prediction more than 1 ms old. -/
def execPredictionStale (h : HotSpot) (s : State) : Out :=
  .next (
    match (s.spot h).pAt with
    | some t => if t + 1000000 < s.now then s.modSpot h (fun x => { x with pAt := none }) else s
    | none => s)

/-! ## Thermal emergency (R430) -/

/-- The allowance in ns that R90 compares: the model's, or in measured-only mode (115 °C − T) / r with r at least 1 °C/ms. -/
def allowanceOf (s : State) (c : CoreId) (model : Nat) : Nat :=
  let h : HotSpot := .core c
  if freshP s h then model else posPart (460 - prot s h) * 5000000 / posPart (hotter 20 (rise s h))
/-- THERMAL_EMERGENCY: T has reached 113 °C, or the model predicts 115 °C within 5 ms even at q = 4. -/
def execThermalEmergency (c : CoreId) (allowanceNs : Nat) (s : State) : Out :=
  .next (
    if (s.core c).emergency ∨ (prot s (.core c) < 452 ∧ freshP s (.core c) = false) then s
    else thermalStop (s.modCore c (fun k => { k with emergency := true })) c (allowanceOf s c allowanceNs))
/-- THERMAL_RELEASE: P has fallen below 105 °C; a paused work item goes on (R90). -/
def execThermalRelease (c : CoreId) (s : State) : Out :=
  .next (
    let k := s.core c
    if k.emergency ∧ predP s (.core c) < 420 then
      if k.fastStopped then s.setCore c { k with emergency := false }
      else settle c (s.setCore c { k.releaseRuns with emergency := false, paused := false })
    else s)

/-! ## Fast stop (R431, R432) -/

/-- A hot spot as a detail word: its sensor number. -/
def spotWord (h : HotSpot) : W64 := w64 (match sensorsOf h with | x :: _ => sensorKey x | [] => 0)
/-- The trigger that a hot spot meets: 1 r, 2 measured rise, 3 a compute or base-die T of 115 °C (log entry 24). -/
def fastTrigger (s : State) (h : HotSpot) : Option Nat :=
  let die : Bool := match h with | .core _ => true | .base _ _ => true | _ => false
  if 80 ≤ rise s h then some 1 else if 16 ≤ measuredRise s h then some 2 else if die ∧ 460 ≤ prot s h then some 3 else none
/-- The stop of one core: R90, its units aborted, its island in mode 1 at q = 4. -/
def stopCore (allowance : Nat) (s : State) (c : CoreId) : State :=
  let s := s.modCore c (fun k => { k with fastStopped := true })
  let s := abortUnits (thermalStop s c (allowanceOf s c allowance)) c
  let k := s.core c
  if k.mode = .off ∨ k.mode = .retention then s
  else setRate (s.setCore c { k with mode := .idle, modeSince := s.now }) c 4
/-- The instances that cores of a tower issued end at home: they do not continue (R431). -/
def endOwnColls (s : State) (t : TowerId) : State :=
  (s.net.colls.filter (fun x => towerOf x.core == t && !x.isLocal && x.status.isNone)).foldl (fun s x =>
    endColl s x stCollWithdrawn (BitVec.ofNat 32 x.rank)) s
/-- The action of a fast stop on a tower. -/
def stopTower (s : State) (t : TowerId) (allowance : Nat) : State :=
  let s := (towerCores t).foldl (stopCore allowance) s
  endOwnColls (towerWithdraw s t) t
/-- The tower's record of a fast stop; the third within 60 s derates it. -/
def noteFastStop (s : State) (t : TowerId) : State :=
  let stops := s.now :: (s.tower t).stops.filter (fun x => decide (s.now < x + 60000000000))
  let derate := decide (3 ≤ stops.length)
  let s := s.modTower t (fun x => { x with
    fastStop := true, stops := stops, derated := x.derated || derate, stopAt := s.now, coolSince := some s.now })
  let s := { s with thm := { s.thm with fastStops := if s.thm.fastStops = 255 then 255 else s.thm.fastStops + 1 } }
  if derate then s.log thmTowerDerate (srcBase t) (locDie t.val) 0 none [w64 t.val, w64 stops.length] else s
/-- FAST_STOP. -/
def execFastStop (t : TowerId) (h : HotSpot) (allowanceNs : Nat) (s : State) : Out :=
  .next (
    match fastTrigger s h with
    | some n =>
      if (s.tower t).fastStop ∨ spotTower h ≠ some t ∨ s.err.safe then s
      else
        let s := s.log thmFastStop (srcBase t) (locSpot h) 0 none [w64 t.val, w64 n, spotWord h, i64 (prot s h), i64 (rise s h)]
        withdrawAll (stopTower (noteFastStop s t) t allowanceNs)
    | none => s)
/-- The on-die hot spots of a tower. -/
def towerSpots (t : TowerId) : List HotSpot :=
  baseSpots t ++ (towerCores t).flatMap (fun c => HotSpot.core c :: allLayers.map (HotSpot.layer c))
/-- The release of one core: its aborted runs start again, at q = 8. -/
def releaseCore (s : State) (c : CoreId) : State :=
  let k := s.core c
  let mode : CoreMode := match k.item, k.wait with
    | some _, .waiting _ _ _ => waitMode k
    | some _, _ => .run
    | none, _ => k.mode
  let k := { k with fastStopped := false, mode := if k.mode = .idle then mode else k.mode }
  let k := if k.emergency then k else { k.releaseRuns with paused := false }
  let s := s.setCore c k
  settle c (if k.mode = .off ∨ k.mode = .retention then s else setRate s c 8)
/-- FAST_STOP_RELEASE: every hot spot of the tower has been cool for 10 ms. -/
def execFastStopRelease (t : TowerId) (s : State) : Out :=
  .next (
    let x := s.tower t
    match x.coolSince with
    | some y =>
      if x.fastStop = false ∨ s.err.safe ∨ s.thm.coolSt = 3 ∨ s.now < y + 10000000 ∨ (towerSpots t).all (releaseCool s) = false then s
      else
        let s := s.modTower t (fun x => { x with fastStop := false, coolSince := none })
        let s := (towerCores t).foldl releaseCore s
        s.log thmFastStopRelease (srcBase t) (locDie t.val) 0 none [w64 t.val, w64 (s.now - x.stopAt)]
    | none => s)

/-! ## IO dies, coolant (R425, R433, R436-R438) -/

/-- The hot spots of an IO die. -/
def ioSpots (d : Fin 2) : List HotSpot := ([0, 1, 2, 3] : List (Fin 4)).map (.io d)
/-- IO_DIE_LIMIT: every 10 ms the MP lowers the limit of a hot IO die by 5 % of the present package power, or raises it by 5 %. -/
def execIoDieLimit (d : Fin 2) (s : State) : Out :=
  .next (
    let p := (ioSpots d).foldl (fun acc h => hotter acc (predP s h)) (-1000)
    let due : Bool := match s.pwr.ioAt.getD d.val none with | some t => decide (t + 10000000 ≤ s.now) | none => true
    let old := s.pwr.ioLimit.getD d.val none
    let new : Option Nat :=
      if 400 ≤ p then some (s.pwr.meanW * 95 / 100)
      else if p < 388 then (match old with
        | some w => if 2400 ≤ w * 105 / 100 then none else some (w * 105 / 100)
        | none => none)
      else old
    if s.mpUp = false ∨ due = false ∨ (p < 400 ∧ old = none) then s
    else { s with pwr := { s.pwr with ioLimit := s.pwr.ioLimit.set d.val new, ioAt := s.pwr.ioAt.set d.val (some s.now) } })

/-- C_v in 0.1 J/(L·K): 4.18 kJ/(L·K) for water, 4.00 at 25 % glycol, linear between (R437). -/
def cv10 (s : State) : Nat := 41800 - 72 * s.thm.glycol.toNat
/-- ΔT_allow in 0.01 °C at an inlet temperature. -/
def riseAllowed (s : State) (inlet : Int) : Nat :=
  Nat.min (100 * s.thm.riseMax.toNat) (posPart (100 * (s.thm.outletMax.toNat : Int) - inlet))
/-- The outlet rise [0.01 °C] that a power and a flow imply. -/
def impliedRise (s : State) (w flow : Nat) : Nat := w * 60000000 / Nat.max 1 (flow * cv10 s)
/-- The flow [0.001 L/min] that a power and an outlet rise imply. -/
def impliedFlow (s : State) (w dT : Nat) : Nat := w * 60000000 / Nat.max 1 (dT * cv10 s)
/-- L_c in mW for a flow and an inlet temperature (R437), the register's 4,095 W at most. -/
def coolantMw (s : State) (flow : Nat) (inlet : Int) : Nat := Nat.min 4095000 (flow * cv10 s * riseAllowed s inlet / 60000)
/-- The computed L_c; after a disagreement from whichever reading gives the lower limit (R425). -/
def coolantTarget (s : State) : Nat :=
  let t := s.thm
  let a := coolantMw s t.flow t.inlet
  if t.disagreeing then
    let w := s.pwr.meanW
    let dT := posPart (t.outlet - t.inlet)
    Nat.min a (Nat.min (coolantMw s (impliedFlow s w dT) t.inlet) (coolantMw s t.flow (t.outlet - (impliedRise s w t.flow : Nat))))
  else a
/-- A value that moves toward a target by at most a step. -/
def toward (v target step : Nat) : Nat := if v ≤ target then Nat.min target (v + step) else Nat.max target (v - step)
/-- The requested flow in percent of 4.5 L/min (R436). -/
def requestFor (s : State) (st : Nat) : Nat :=
  match st with
  | 0 => Nat.min 255 (Nat.max 100 ((impliedFlow s s.pwr.meanW (riseAllowed s s.thm.inlet) * 100 + 4499) / 4500))
  | 1 => 150
  | _ => 255
/-- COOL_ALERT_N is asserted while the cooling state is not normal or more than 100 % is requested (R435). -/
def setAlert (s : State) : State := { s with thm := { s.thm with coolAlert := s.thm.coolSt != 0 || decide (100 < s.thm.request) } }
/-- The cooling state between normal and flow low after a sample (R438). -/
def flowState (s : State) : State :=
  let t := s.thm
  let low := 100 * t.flowLow.toNat
  match t.coolSt with
  | 0 =>
    if t.flow < low then
      let s : State := { s with thm := { t with coolSt := 1, flowOkSince := none } }
      s.log thmFlowLow srcMp 0 0 none [w64 t.flow, w64 (t.limitMw / 1000), w64 (requestFor s 1)]
    else s
  | 1 =>
    let ok := since (decide (low + 200 < t.flow)) t.flowOkSince s.now
    let done : Bool := match ok with | some x => decide (x + 10000000000 ≤ s.now) | none => false
    { s with thm := { t with flowOkSince := (if done then none else ok), coolSt := if done then 0 else 1 } }
  | _ => s
/-- FLOW_SAMPLE: the sensors are read; L_c moves toward its value by at most 50 W/s; the cooling state and the request follow. The MP's
part waits while it restarts. -/
def execFlowSample (flow : Nat) (inlet outlet : Int) (s : State) : Out :=
  .next (
    let above := decide (((riseAllowed s inlet + 300 : Nat) : Int) < outlet - inlet)
    let hist := (s.now, flow) :: s.thm.flowHist.filter (fun x => decide (s.now ≤ x.1 + 100000000))
    let s : State := { s with thm := { s.thm with
      flow := flow, inlet := inlet, outlet := outlet, flowHist := hist, outletOver := if above then s.thm.outletOver + 1 else 0 } }
    if s.mpUp = false then s
    else
      let step := (s.now - s.thm.lastFlowAt) * 50 / 1000000
      let s : State := { s with thm := { s.thm with limitMw := toward s.thm.limitMw (coolantTarget s) step, lastFlowAt := s.now } }
      let s := flowState s
      setAlert { s with thm := { s.thm with request := requestFor s s.thm.coolSt } })
/-- COOLANT_CHECK: once per second the MP compares the coolant sensors; a departure of 1 s counts from then on (R425). -/
def execCoolantCheck (s : State) : Out :=
  .next (
    let t := s.thm
    let w := s.pwr.meanW
    let dT := posPart (t.outlet - t.inlet)
    let f := impliedFlow s w dT
    let off := decide (300 < gap (t.outlet - t.inlet) (impliedRise s w t.flow : Nat)) || decide (f < 4 * posPart (gap (t.flow : Nat) (f : Nat)))
    let hot := decide (4000 < t.inlet)
    if s.mpUp = false then s
    else if hot = false ∧ off = false then { s with thm := { t with flowDis := none } }
    else
      let t0 := match t.flowDis with | some x => x | none => s.now
      if t.disagreeing then s
      else if hot ∨ t0 + 1000000000 ≤ s.now then
        ({ s with thm := { t with disagreeing := true, flowDis := some t0 } }).log thmDisagree srcMp 0 0 none
          [i64 t.inlet, i64 t.outlet, w64 t.flow, w64 (Nat.min (coolantMw s t.flow t.inlet) (coolantTarget { s with thm := { t with disagreeing := true } }) / 1000)]
      else { s with thm := { t with flowDis := some t0 } })

/-! ## Reports (R435, R443) -/

/-- The hottest protection reading of a list of hot spots. -/
def hottestOf (s : State) (l : List HotSpot) : Int := (hottest (l.map (prot s))).getD 0
/-- The value of a PLDM sensor (Table 16.3). -/
def pldmValue (s : State) (n : Nat) : Int :=
  match n with
  | 1 => s.thm.inlet
  | 2 => s.thm.outlet
  | 3 => s.thm.flow
  | 4 => s.pwr.meanW
  | 5 => hottestOf s (everyCore.map HotSpot.core)
  | 6 => hottestOf s (everyCore.flatMap (fun c => allLayers.map (HotSpot.layer c)))
  | 7 => s.thm.request
  | _ => s.thm.coolSt
/-- PLDM_UPDATE: the MP publishes one of the sensors 1 to 8. -/
def execPldmUpdate (sensor : Fin 9) (s : State) : Out :=
  .next (
    if s.mpUp = false ∨ sensor.val = 0 then s
    else { s with thm := { s.thm with pldm := smSet s.thm.pldm sensor.val (pldmValue s sensor.val) } })
/-- Whether a layer is outside band 0 or an island below q_max. -/
def outsideNormal (s : State) : Bool :=
  s.slices.any (fun x => x.2.layers.any (fun (l : Layer) => l.band != 0)) || s.cores.any (fun x => decide (x.2.q < s.pwr.qMax))
  || decide (Core.reset.q < s.pwr.qMax)
/-- THERMAL_SUMMARY_TIMER: every 10 s outside band 0 or below q_max; its words are free values. -/
def execThermalSummaryTimer (s : State) : Out :=
  .next (
    if s.mpUp = false ∨ s.now < s.thm.lastSummary + 10000000000 ∨ outsideNormal s = false then s
    else
      let s := ({ s with thm := { s.thm with lastSummary := s.now } }).log thmSummary srcMp 0 0 none
        ((List.range 11).map (fun i => Config.summaryWord (s.free + i)))
      s.drew 11)

end Sys2Proof.Machine
end

