-- ==== Sys2Proof/Machine/Safe.lean ====
section
/-! DEFINITION. SAFE, stops, tower fences, restarts, the device log and its mirror (R305, R316-R318, R396, R400, R439, R440, R445-R458). -/

namespace Sys2Proof.Machine

/-! ## SAFE (R457, R458) -/

/-- Every tower. -/
def allTowers : List TowerId := [0, 1, 2, 3, 4, 5, 6, 7]
/-- A work item that SAFE ends: its record carries ST_SAFE; a step's sequences get theirs with the step. -/
def safeItem (c : CoreId) (s : State) (i : WorkItem) : State :=
  let s := unpin s i
  match i.stepPhase with
  | some _ => s
  | none => s.record i.context (i.seq, i.peer) stSafe i.tag i.workItem 0xFFFFFFFF c.val
/-- The work items on a core, running or pre-empted. -/
def Core.itemsOn (k : Core) : List WorkItem :=
  (match k.item with | some i => [i] | none => []) ++ (match k.saved with | some v => [v.item] | none => [])
/-- Outcomes already reported keep their own statuses (R399). -/
def safeOutcomes (s : State) : State :=
  s.sched.outcomes.foldl (fun (s : State) (o : WorkOutcome) => takeOutcome s (towerOf o.core) o) { s with sched := { s.sched with outcomes := [] } }
/-- Every fetched descriptor completes with ST_SAFE, records written or held by R349 (Table 17.9, step 3). -/
def safeDescs (s : State) : State :=
  let s := safeOutcomes s
  let s := s.cores.foldl (fun (s : State) x => x.2.itemsOn.foldl (safeItem (Fin.ofNat 512 x.1)) s) s
  let s := cancelWhere s stSafe true (fun _ => true)
  let s := s.ctxs.foldl (fun (s : State) (x : Ctx) => cancelSteps s x.num stSafe true) s
  s.ctxs.foldl (fun (s : State) (x : Ctx) =>
    (match s.ctx? x.num with | some y => y.descs | none => []).foldl (fun (s : State) (d : Desc) =>
      s.recordLast x.num (d.seq, d.peer) stSafe) s) s
/-- A core whose island is off: it keeps only its fences (R405). -/
def Core.off (k : Core) (n now free : Nat) : Core :=
  { Core.reset with
    fenced := k.fenced, sampler := { Core.reset.sampler with fenced := k.sampler.fenced },
    groups := k.groups.map (fun (g : Group) => { Group.reset with fence := g.fence, dead := g.dead }),
    undef := [(0, coreStoreSize, free + n)], mode := .off, modeSince := now, onLoop := false, loopLocked := false, clkLoop := false,
    q := k.q, tickBase := k.tickBase, tickSince := k.tickSince, hot := k.hot, emergency := k.emergency, fastStopped := k.fastStopped }
/-- Units whose layers are off keep only their fences. -/
def Slice.unitsOff (k : Slice) : Slice :=
  { k with units := (k.units.filter (fun x => x.2.fencedU)).map (fun x => (x.1, { BankUnit.reset with st := .fenced, fencedU := true })),
           launches := [], liveWords := [] }
/-- Core islands and near-bank layers off. -/
def islandsOff (s : State) : State :=
  let cores := everyCore.map (fun c => (c.val, (s.core c).off c.val s.now s.free))
  let units (x : Nat × Slice) : Nat × Slice := (x.1, x.2.unitsOff)
  { s with cores := cores, coreStore := [], slices := s.slices.map units, free := s.free + 512,
           pwr := { s.pwr with nearBank := List.replicate 8 .off } }
/-- Every slice of a tower that is not fenced off enters self-refresh. -/
def slicesRest (s : State) : State :=
  everyCore.foldl (fun (s : State) (c : CoreId) => if (s.slice c).selfRefresh then s else enterSelfRefresh s c) s
/-- The block is stopped: staged values are discarded (R17), recoveries abandoned, functions read SAFE, the record logged. -/
def safeState (s : State) (cause : Nat) : State :=
  let keep (k : Fn) : Fn := if k.st = .safe then k else { k with before := k.st, st := .safe }
  let s : State := { s with
    err := { s.err with safe := true, cause := cause, safeAt := some s.now, spans := [], ready := [] },
    fns := s.fns.map keep,
    mem := { s.mem with weirShadow := List.replicate 16 none },
    thm := { s.thm with request := 255, orderly := false },
    pwr := { s.pwr with effective := 900, powerUp := [] } }
  (setAlert s).log errSafeEnter (if cause = 3 then srcIo 0 else srcMp) 0 0 none [w64 cause]
/-- Both ends of a stop of every tower: fast stop, then withdraw notices (Table 17.9, steps 1 and 2). -/
def stopAll (s : State) : State :=
  let s := allTowers.foldl (fun (s : State) (t : TowerId) =>
    if (s.tower t).fastStop then s else stopTower (s.modTower t (fun x => { x with fastStop := true, stopAt := s.now, coolSince := none })) t 0) s
  withdrawAll s
/-- Immediate entry to SAFE (Table 17.9). -/
def safeNow (s : State) (cause : Nat) : State :=
  if s.err.safe then s
  else safeState (slicesRest (islandsOff (safeDescs (stopAll s)))) cause
/-- The orderly stop (Table 16.5): withdraw, work ends with ST_SAFE, slices rest, journals are written, islands off, SAFE. -/
def safeOrderly (s : State) (cause : Nat) : State :=
  if s.err.safe then s
  else
    let s : State := { s with thm := { s.thm with orderly := true } }
    let s := everyCore.foldl abortUnits (withdrawAll s)
    let s := allTowers.foldl (fun (s : State) (t : TowerId) => endOwnColls (towerWithdraw s t) t) s
    safeState (islandsOff (slicesRest (safeDescs s))) cause

/-- Whether an IO die is unlocked beyond 1 ms, or every die has lost its lock (R305). -/
def unlockedLong (s : State) (d : DieId) : Bool :=
  match (s.clk d).unlockedAt with | some t => !(s.clk d).locked && decide (t + 1000000 < s.now) | none => false
/-- All dies. -/
def allDies : List DieId := [0, 1, 2, 3, 4, 5, 6, 7, 8, 9]
/-- A dead link whose end towers are both in service while another tower is fenced (R317). -/
def noRouteSet (s : State) : Bool :=
  !s.fencedTowers.isEmpty && allLinks.any (fun l => (s.link l).width == 3 && (s.link l).st == 3
    && !(s.fencedTowers.contains (linkEnds l).1) && !(s.fencedTowers.contains (linkEnds l).2))
/-- A sudden-stop trip (R439): 1 a flow collapse, 2 the outlet rise on two samples. -/
def suddenTrip (s : State) : Option Nat :=
  if s.thm.flow < 450 ∧ s.thm.flowHist.any (fun x => decide (1800 ≤ x.2) && decide (s.now ≤ x.1 + 100000000)) then some 1
  else if 2 ≤ s.thm.outletOver then some 2 else none
/-- Whether a flow sample stands below 40 % of nominal (R438). -/
def flowShort (s : State) : Bool := decide (s.thm.flow < 1800) && !s.thm.flowHist.isEmpty
/-- The sudden coolant stop (Table 16.4). The allowance A [ms] is the model's: a free value. -/
def coolantStop (s : State) (trip : Nat) : State :=
  if s.err.safe then s
  else
    let a := Config.choice s.free
    let path5a := s.mpUp && decide (200 ≤ a)
    let s : State := setAlert { (s.drew 1) with thm := { s.thm with coolSt := 3, request := 255 } }
    let s := stopAll s
    let s := s.log thmFlowStop (if s.mpUp then srcMp else srcIo 0) 0 0 none
      [w64 trip, w64 s.thm.flow, i64 (s.thm.outlet - s.thm.inlet), w64 a, w64 (if path5a then 0 else 1)]
    if path5a then safeOrderly s 2 else safeState (slicesRest (islandsOff (safeDescs s))) 2
/-- SUDDEN_STOP: an IO-A comparator trips. -/
def execSuddenStop (s : State) : Out := .next (match suddenTrip s with | some n => coolantStop s n | none => s)
/-- ORDERLY_STOP: the flow has fallen below 40 %; the comparator waits for an MP that is restarting (R438, R440). -/
def execOrderlyStop (s : State) : Out :=
  .next (
    if flowShort s = false ∨ s.err.safe ∨ s.mpUp = false then s
    else safeOrderly { s with thm := { s.thm with coolSt := 2 } } 1)
/-- The condition of a SAFE cause that stands in the state, and whether its path is the orderly one; the other causes are entered by the
commands that raise them. -/
def safeDue (s : State) (cause : Nat) : Option Bool :=
  match cause with
  | 1 => if flowShort s ∧ s.mpUp then some true else none
  | 3 => if (s.proc 0).st = .heldDown then some false else none
  | 4 => if (s.proc 1).st = .heldDown then some true else none
  | 5 => if (s.stage 8).on = false ∨ (s.stage 9).on = false then some false else none
  | 6 => if unlockedLong s 8 ∨ unlockedLong s 9 ∨ allDies.all (fun d => !(s.clk d).locked) then some false else none
  | 7 => if ([0, 1] : List (Fin 2)).any (fun d => (ioSpots d).any (fun h => decide (460 ≤ prot s h))) then some false else none
  | 8 => if noRouteSet s then some true else none
  | _ => none
/-- SAFE_ENTER. -/
def execSafeEnter (cause : Fin 14) (s : State) : Out :=
  .next (
    if s.start.phase ≠ .booted ∧ s.start.phase ≠ .service then s
    else match safeDue s cause.val with
      | some true => safeOrderly s cause.val
      | some false => safeNow s cause.val
      | none => s)

/-! ## Sensor samples with an IO die's limit (R428, R433) -/

/-- SENSOR_SAMPLE: the controller's responses; an IO die at 115 °C sends Kegor to SAFE. -/
def execSensorSample (x : SensorId) (conversion : Option Int) (s : State) : Out :=
  .next (
    let s := sampleSensor s x conversion
    match spotOf x with
    | .io _ _ => if 460 ≤ prot s (spotOf x) then safeNow s 7 else s
    | _ => s)

/-! ## Tower fences (R305, R317, R318) -/

/-- The number of a cause in EV_TOWER_FENCED (log entry 24). -/
def fenceNo : TowerFenceCause → Nat
  | .deadLink => 0
  | .lockLoss => 1
  | .stageFault => 2
/-- The work items of a core end with ST_TOWER_FENCED; those that have not started go to other towers. -/
def endTowerCore (s : State) (c : CoreId) : State :=
  let s := endItem s c stTowerFenced 0xFFFFFFFF
  let k := s.core c
  let s := match k.saved with
    | some v =>
      endItem (s.setCore c { k with
        item := some v.item, saved := none, arith := v.counts, satMov := v.satMov, poisonSeen := v.poisonSeen, passPoison := v.passPoison,
        nbPoison := v.nbPoison }) c stTowerFenced 0xFFFFFFFF
    | none => s
  requeue s c
/-- The private regions of a tower's slices are lost whatever their type (R188, R318). -/
def losePrivateTower (s : State) (t : TowerId) : State :=
  s.regions.foldl (fun (s : State) (r : Region) =>
    if r.view = 0 ∧ r.firstCore ≤ 64 * t.val + 63 ∧ 64 * t.val ≤ r.lastCore then
      (s.modRegion r.id (fun x => { x with lost := true })).stateLoss r stStateLost r.lines
    else s) s
/-- Whether a tower can be reached: some link of it to a die in service is not dead. -/
def reachable (s : State) (t : TowerId) : Bool :=
  allLinks.any (fun l => touches l t.val && (s.link l).st != 3 && !(s.fencedTowers.contains (farEnd l t.val)))
/-- The fence of a tower (Table 11.6). With another tower fenced there is no route set left. -/
def fenceTower (s : State) (t : TowerId) (cause : TowerFenceCause) : State :=
  if s.fencedTowers.contains t.val ∨ s.err.safe then s
  else if s.fencedTowers.isEmpty = false then safeOrderly s 8
  else
    let up := cause == .deadLink && reachable s t
    let s := s.logOpen evTowerFenced srcMp (locDie t.val) 0 none [w64 t.val, w64 (fenceNo cause)]
    let mine (n : Nat) : Bool := n / 64 == t.val
    let out (p : Part) : Part := { p with cores := p.cores.filter (fun n => !(mine n)) }
    let s : State := { s with parts := s.parts.map out, fencedTowers := s.fencedTowers ++ [t.val] }
    let s := s.addFence 5 t.val 0
    let s := s.queueEpoch { plainChange .towerFence with tower := some t, migrated := if up then 0 else s.setsAddr }
    let s := (towerCores t).foldl endTowerCore s
    let s := towerWithdraw s t
    let s := losePrivateTower s t
    if up then s
    else
      let s := loseSpread s (fun g => g / 256 == t.val)
      losePages s 1 (fun p => p.framed && towerOf p.core == t)
/-- Whether the condition of a fence stands. -/
def fenceDue (s : State) (t : TowerId) : TowerFenceCause → Bool
  | .deadLink => allLinks.any (fun l => (s.link l).st == 3 && (s.link l).width == 3 && fenceChoice s l == t.val
      && !(s.fencedTowers.contains (linkEnds l).1) && !(s.fencedTowers.contains (linkEnds l).2))
  | .lockLoss => unlockedLong s (Fin.ofNat 10 t.val)
  | .stageFault => !(s.stage (stageOf t)).on
/-- TOWER_FENCE: the MP fences a tower. -/
def execTowerFence (t : TowerId) (cause : TowerFenceCause) (s : State) : Out :=
  .next (if s.mpUp ∧ fenceDue s t cause then fenceTower s t cause else s)
/-- CLOCK_UNLOCK_TIMEOUT: a base die unlocked beyond 1 ms fences its tower; an IO die, or a lost reference, sends Kegor to SAFE. -/
def execClockUnlockTimeout (d : DieId) (s : State) : Out :=
  .next (
    if unlockedLong s d = false then s
    else if 8 ≤ d.val ∨ allDies.all (fun d => !(s.clk d).locked) then safeNow s 6
    else fenceTower s (Fin.ofNat 8 d.val) .lockLoss)

/-! ## Restarts (R396, R400, R402) -/

/-- A restart with what follows: an SP restart ends the sessions (Table 18.6), and a processor may be held down (Table 14.6). -/
def restartWith (s : State) (p : Nat) (cause : Nat) : State :=
  let s := restartProc s p cause
  let close (x : Mbox) : Mbox := { x with session := none, quote := none }
  let s : State := if p = 1 then { s with sec := { s.sec with mbox := s.sec.mbox.map close } } else s
  if (s.proc p).st ≠ .heldDown then s
  else match p with
    | 0 => safeNow s 3
    | 1 => safeOrderly s 4
    | 10 => npHeld s 0
    | 11 => npHeld s 1
    | _ => s
/-- WATCHDOG_EXPIRE. -/
def execWatchdogExpire (p : ProcId) (cause : RestartCause) (s : State) : Out :=
  .next (if canRestart s p.val then restartWith s p.val (causeOf cause) else s)

/-! ## Strict power-up (R419) -/

/-- The number of a domain: kind and index as PWR_DOMAIN_SEL numbers them, ports as kind 4. -/
def domainNo : Domain → Nat
  | .coreIsland c => c.val
  | .nearBank t => 1024 + t.val
  | .slice c => 2048 + c.val
  | .processor p => 3072 + p.val
  | .port n => 4096 + n.val
/-- A domain as a detail word: kind in [15:12], index below. -/
def domainWord (d : Domain) : W64 := w64 (domainNo d / 1024 * 4096 + domainNo d % 1024)
/-- Whether a domain is off and may be powered up. -/
def domainOff (s : State) : Domain → Bool
  | .coreIsland c => (s.core c).mode == .off && !s.pwr.failed.contains c.val
  | .nearBank t => s.pwr.nearBank.getD t.val .on == .off
  | .slice c => (s.slice c).selfRefresh
  | .processor p => (s.proc p.val).st == .off
  | .port n => s.pwr.ports.getD n.val .on == .off
/-- A domain after step 4. -/
def domainOn (s : State) : Domain → State
  | .coreIsland c => changeRate s c (fun k => { k with mode := .run, modeSince := s.now, onLoop := true, loopLocked := true, clkLoop := true })
  | .nearBank t => { s with pwr := { s.pwr with nearBank := s.pwr.nearBank.set t.val .on } }
  | .slice c => s.modSlice c (fun k => { k with selfRefresh := false })
  | .processor p => s.modProc p.val (fun x => { x with st := .running })
  | .port n => { s with pwr := { s.pwr with ports := s.pwr.ports.set n.val .on } }
/-- A domain that missed a ready signal twice: it stays off. A core island is fenced; a tower whose stage or base-die loops fail is fenced; an IO
die that fails sends Kegor to SAFE. -/
def domainFails (s : State) (d : Domain) (step : Fin 4) : State :=
  let s : State := { s with pwr := { s.pwr with failed := s.pwr.failed ++ [domainNo d] } }
  let s := s.log pwrWakeFail srcMp (match d with | .coreIsland c => locDie (c.val / 64) | .processor p => locProc p.val | _ => 0) 0 none
    [domainWord d, w64 (step.val + 1), w64 (step.val + 1)]
  match d with
  | .coreIsland c => s.fenceCore c
  | .nearBank t =>
    let s : State := { s with pwr := { s.pwr with nearBank := s.pwr.nearBank.set t.val .failed } }
    if step.val < 2 then fenceTower s t .stageFault else s
  | .slice c => if step.val < 2 then fenceTower s (towerOf c) .stageFault else s
  | .processor p =>
    if 2 ≤ p.val ∧ p.val < 10 then (if step.val < 2 then fenceTower s (Fin.ofNat 8 (p.val - 2)) .stageFault else s) else safeNow s 9
  | .port n =>
    let s : State := { s with pwr := { s.pwr with ports := s.pwr.ports.set n.val .failed } }
    if step.val < 2 then safeNow s 9 else s
/-- STRICT_POWER_UP: a step of Table 15.5 and its ready signal; a missing one is retried once. -/
def execStrictPowerUp (d : Domain) (step : Fin 4) (ready : Bool) (s : State) : Out :=
  .next (
    let n := domainNo d
    let at_ := s.pwr.powerUp.find? (fun x => x.1 == n)
    let rest := s.pwr.powerUp.filter (fun x => x.1 != n)
    let put (l : List (Nat × Nat × Nat)) : State := { s with pwr := { s.pwr with powerUp := l } }
    let now : Nat × Nat := match at_ with | some x => x.2 | none => (0, 0)
    if s.mpUp = false ∨ s.err.safe ∨ domainOff s d = false ∨ step.val ≠ now.1 then s
    else if ready then
      (if step.val = 3 then domainOn (put rest) d else put (rest ++ [(n, step.val + 1, 0)]))
    else if now.2 = 0 then put (rest ++ [(n, step.val, 1)])
    else domainFails (put rest) d step)

/-! ## The device log and its mirror (R449-R451) -/

/-- A record with its parent's index, when its parent is entered. -/
def parentOf (e : Err) (r : LogRec) : W32 :=
  match r.under with
  | none => 0xFFFFFFFF
  | some (src, q) =>
    match e.spans.find? (fun p => p.src == src && p.seq == q) with
    | some p => p.index.getD 0xFFFFFFFF
    | none => ((e.entries.find? (fun x => x.src == src && x.seq == q)).map (fun x => x.index)).getD 0xFFFFFFFF
/-- The lowest severity of a list of entries. -/
def lowestSeverity (l : List LogRec) : Nat := l.foldl (fun acc (r : LogRec) => Nat.min acc r.severity) 7
/-- The log without the oldest entry that a test picks. -/
def dropFirst (p : LogRec → Bool) : List LogRec → List LogRec
  | [] => []
  | r :: t => if p r then t else r :: dropFirst p t
/-- The entries with room for a record, or none when it is discarded (R450). -/
def makeRoom (l : List LogRec) (r : LogRec) : Option (List LogRec) :=
  let low := lowestSeverity l
  let isSafe (x : LogRec) : Bool := x.code == errSafeEnter.code
  if l.length < 1024 then some l
  else if low < r.severity then some (dropFirst (fun x => x.severity == low) l)
  else if isSafe r then
    some (if l.any (fun x => !(isSafe x)) then dropFirst (fun x => !(isSafe x)) l else l.drop 1)
  else none
/-- A record enters the device log: it takes the next log_index, and its span knows it. -/
def enterLog (s : State) (r : LogRec) : State :=
  let e := s.err
  let full := decide (1024 ≤ e.entries.length)
  let e : Err := if full ∧ e.overflow ≠ 0xFFFF then { e with overflow := e.overflow + 1 } else e
  match makeRoom e.entries r with
  | none => { s with err := e }
  | some l =>
    let r' : LogRec := { r with index := e.nextIndex, parent := parentOf e r }
    let named (p : Span) : Span := { p with index := some e.nextIndex }
    { s with err := { e with entries := l ++ [r'], nextIndex := e.nextIndex + 1,
                             spans := updWhere (fun p => p.src == r.src && p.seq == r.seq) named e.spans } }
/-- LOG_RECORD: the oldest record of a source reaches the MP; a source that dropped records reports them once it has room. -/
def execLogRecord (src : Source) (s : State) : Out :=
  .next (
    let b := s.err.srcBuf src
    match b.buf with
    | [] => s
    | r :: rest =>
      if s.mpUp = false then s
      else
        let s := enterLog { s with err := s.err.setSrcBuf { b with buf := rest, dropped := 0 } } r
        if b.dropped = 0 then s else s.log errLogOverflow src 0 0 none [w64 b.dropped])
/-- The 16 words of a record (Table 17.1). -/
def logWords (r : LogRec) (phase : Bool) : List W64 :=
  let ctx : Nat := match r.ctx with | some (c, p) => c.val * 2 ^ 16 + p.val * 2 ^ 12 + 2 ^ 11 | none => 0
  [w64 (r.code.toNat * 2 ^ 48 + r.severity * 2 ^ 45 + (if r.nested then 2 ^ 44 else 0) + (if r.preempts then 2 ^ 43 else 0)
      + r.src.kind.val * 2 ^ 36 + r.src.index * 2 ^ 24 + ctx + (if phase then 1 else 0)),
    w64 r.time, r.seq ++ r.index, w64 (r.parent.toNat * 2 ^ 32 + r.status.toNat * 2 ^ 16 + r.repeats.toNat), r.location]
  ++ r.detail.take 11 ++ List.replicate (11 - (r.detail.take 11).length) 0
/-- Whether the mirror takes entries: the PF is attached and named a log ring. -/
def mirrorOpen (s : State) : Bool := (s.fn 0).attached && (s.fn 0).logRing != 0 && s.mpUp
/-- MIRROR_WRITE: the oldest entry goes into the mirror ring, Q0 last, and is freed. -/
def execMirrorWrite (s : State) : Out :=
  .next (
    match s.err.entries with
    | [] => s
    | r :: rest =>
      if mirrorOpen s = false then s
      else
        let k := s.fn 0
        let i := r.index.toNat
        let at_ := k.logRing.toNat + 128 * (i % 2 ^ k.logLog2)
        let ws := logWords r (i / 2 ^ k.logLog2 % 2 == 0)
        let s := (s.hostPut (at_ + 8) (ws.drop 1)).hostPut at_ (ws.take 1)
        let now := decide (s.err.irqSeverity.toNat ≤ r.severity)
        let since : Option Nat := if now then none else match s.err.mirrorUnsig with | some t => some t | none => some s.now
        let s : State := { s with err := { s.err with entries := rest, mirrorNext := i + 1, mirrorUnsig := since } }
        if now then s.signal 0 0 else s)
/-- MIRROR_SIGNAL_TIMER. -/
def execMirrorSignalTimer (s : State) : Out :=
  .next (
    match s.err.mirrorUnsig with
    | some t =>
      if (s.fn 0).attached ∧ t + s.err.timerUs.toNat * 1000 ≤ s.now then
        ({ s with err := { s.err with mirrorUnsig := none } }).signal 0 0
      else s
    | none => s)
/-- RECOVERY_DEQUEUE: a recovery whose span ahead of it has closed starts. -/
def execRecoveryDequeue (s : State) : Out :=
  .next (
    match s.err.ready with
    | [] => s
    | r :: rest =>
      if s.err.safe then s
      else
        let s : State := { s with err := { s.err with ready := rest } }
        match r with
        | .retrain c ch cause => retrainTrigger s c ch cause
        | .repair c u =>
          let ch : ChanId := Fin.ofNat 4 (rowBank (unitRow u 0) / 32)
          if inRepair (s.slice c) u ∨ (s.chan c ch).lost then s else startRepair s c u
        | .channelLoss c ch cause => channelLoss s c ch cause)
/-- A write of ERR_LOG_ACK frees the entries up to a log_index. -/
def logAck (s : State) (v : W32) : State :=
  { s with err := { s.err with entries := s.err.entries.filter (fun r => decide (2 ^ 31 ≤ (v - r.index).toNat)) } }
/-- A write of ERR_LOG_SEL selects an entry and latches its copy. -/
def logSel (s : State) (v : W32) : State :=
  let n := bits v 0 10
  let copy := match s.err.entries[n]? with | some r => logWords r false | none => List.replicate 16 0
  { s with err := { s.err with sel := BitVec.ofNat 10 n, latch := copy } }
/-- A write of ERR_FENCE_CLEAR marks a fence for retest at the next cold start, and changes nothing in service (R456). -/
def fenceClear (s : State) (src : Source) (off : Nat) (v : W32) : State :=
  let f : FenceId := { kind := bits v 28 4, index := bits v 19 9, sub := bits v 12 7 }
  if 7 ≤ f.kind then s
  else if s.err.fences.contains f then
    (if s.err.marks.contains f then s else { s with err := { s.err with marks := s.err.marks ++ [f] } })
  else cfgReject s src stCfgRange off v

end Sys2Proof.Machine
end

