-- ==== Sys2Proof/Machine/Security.lean ====
section
/-! DEFINITION. The security subsystem: mailbox, quotes, sessions, owners, bundles, tamper, erase (R461-R475). -/

namespace Sys2Proof.Machine

/-! ## Measurement (R464) -/

/-- Whether the module is a DXK-8T512-WS. -/
def isWs : Bool := Config.orderCode == 2
/-- The bytes of a 64 B value. -/
def bytes64 (x : BitVec 512) : List Byte := natLe 64 x.toNat
/-- The 32 B digest of an owner key; zero without an owner. -/
def ownerDigest (s : State) : List Byte :=
  match s.sec.owner with | some k => (bytes64 (Config.shake256 k)).take 32 | none => List.replicate 32 0
/-- A measurement register. -/
def State.mreg (s : State) (i : Nat) : BitVec 512 := s.sec.regs.getD i 0
/-- Extends a register with bytes. -/
def extendReg (s : State) (i : Nat) (x : List Byte) : State :=
  { s with sec := { s.sec with regs := s.sec.regs.set i (Config.shake256 (bytes64 (s.mreg i) ++ x)) } }
/-- M6: ordering code, tamper response mask, owner key digest. -/
def extendConfig (s : State) : State :=
  extendReg s 6 (Config.measured 6 ([Config.orderCode.toNat, s.sec.enabled.toNat] ++ (ownerDigest s).map (·.toNat)))
/-- M7: identity state and rollback counter. -/
def extendLife (s : State) : State :=
  extendReg s 7 (Config.measured 7 [if s.sec.identityLost then 1 else 0, s.sec.rollback.toNat])
/-- Words of a byte string, for a record. -/
def byteWords (l : List Byte) (n : Nat) : List W64 := (List.range n).map (fun i => BitVec.ofNat 64 (leNat ((l.drop (8 * i)).take 8)))
/-- SEC_BOOT_MEASURED, with as much of M0 to M7 as fits. -/
def logMeasured (s : State) : State :=
  s.log secBootMeasured srcSp 0 0 none (w64 8 :: ((List.range 8).flatMap (fun i => byteWords (bytes64 (s.mreg i)) 8)))

/-! ## The mailbox (R466) -/

/-- A mailbox instance. -/
def State.mbox (s : State) (m : MboxId) : Mbox := s.sec.mbox.getD m.val Mbox.reset
/-- The state with an instance changed. -/
def State.modMbox (s : State) (m : MboxId) (f : Mbox → Mbox) : State :=
  { s with sec := { s.sec with mbox := s.sec.mbox.modify m.val f } }
/-- A byte string cut or filled to a length. -/
def fixLen (n : Nat) (l : List Byte) : List Byte := (List.range n).map (fun i => l.getD i 0)
/-- A response: its header, then its payload. -/
def respond (s : State) (m : MboxId) (code : Nat) (tag : W32) (sid : W32) (status : BitVec 16) (payload : List Byte) : State :=
  let q0 := code * 2 ^ 48 + payload.length % 2 ^ 16 * 2 ^ 32 + tag.toNat
  let q1 := sid.toNat * 2 ^ 32 + status.toNat * 2 ^ 16
  s.modMbox m (fun x => { x with
    busy := false, done := true, status := status, response := natLe 8 q0 ++ natLe 8 q1 ++ payload })
/-- A response inside a session, sealed. -/
def respondSealed (s : State) (m : MboxId) (code : Nat) (tag : W32) (status : BitVec 16) (payload : List Byte) : State :=
  match (s.mbox m).session with
  | none => respond s m code tag 0 status []
  | some k =>
    (respond s m code tag k.id status (Config.sealWith k.key k.sent payload)).modMbox m (fun x =>
      { x with session := some { k with sent := k.sent + 1 } })
/-- Whether the mailbox is served: Kegor has booted. -/
def mboxOpen (s : State) : Bool := s.start.phase == .booted || s.start.phase == .service
/-- A request: ignored while one is unanswered, answered busy while the SP does not run. -/
def request (m : MboxId) (code : Nat) (tag : W32) (s : State) (f : State → State) : Out :=
  .next (
    if mboxOpen s = false then s
    else if (s.mbox m).busy then cfgReject s srcSp stCfgLocked 0x9000C 1
    else if (s.proc 1).st ≠ .running then respond s m code tag 0 stSecBusy []
    else f (s.modMbox m (fun x => { x with session := x.session.map (fun k => { k with lastAt := s.now }) })))
/-- A record of a failed authentication. -/
def logAuthFail (s : State) (m : MboxId) (code : Nat) : State :=
  s.log secAuthFail srcSp 0 stSecAuth none [w64 m.val, w64 code]
/-- A request inside a session: the counter is one more than the last, and the tag verifies; else the session ends. -/
def inSession (m : MboxId) (code : Nat) (tag sid : W32) (counter : W64) (authentic : Bool) (s : State)
    (f : State → Session → State) : Out :=
  request m code tag s (fun s =>
    match (s.mbox m).session with
    | none => respond s m code tag 0 stSecNoSession []
    | some k =>
      if k.id ≠ sid then respond s m code tag 0 stSecNoSession []
      else if counter ≠ k.counter + 1 ∨ authentic = false then
        logAuthFail (respond (s.modMbox m (fun x => { x with session := none })) m code tag 0 stSecAuth []) m code
      else
        let k := { k with counter := counter }
        f (s.modMbox m (fun x => { x with session := some k })) k)

/-! ## Certificates, quotes, sessions (R465-R468) -/

/-- At most 8 KiB of a string of a length from an offset. -/
def part8k (len : Nat) (at_ : Nat → Byte) (off : Nat) : List Byte := (List.range (Nat.min 8192 (len - off))).map (fun i => at_ (off + i))
/-- GET_CERT. -/
def execGetCert (m : MboxId) (tag : W32) (index : BitVec 8) (offset : W32) (s : State) : Out :=
  request m 1 tag s (fun s =>
    if 2 < index.toNat then respond s m 1 tag 0 stSecFormat []
    else respond s m 1 tag 0 stOk (part8k (Config.certLen index.toNat) (Config.certByte index.toNat) offset.toNat))
/-- SEC_STATUS. -/
def secStatus (s : State) : W32 :=
  BitVec.ofNat 32 (s.sec.rollback.toNat % 256 * 2 ^ 16 + (if isWs then 128 else 0) + (if s.sec.owner.isSome then 64 else 0)
    + (if s.sec.identityLost then 16 else 0) + s.sec.selftest)
/-- FW_ID_BUNDLE. -/
def bundleVer (s : State) : W32 := if s.fw.running then s.fw.bundleB else s.fw.bundleA
/-- FW_ID_START. -/
def idStart (s : State) : W32 :=
  BitVec.ofNat 32 ((if s.start.warm then 2 ^ 28 else 0) + s.start.warmStarts.toNat * 256 + s.start.safeCause)
/-- FW_ID_PART (R488). -/
def idPart : W32 := 0x0D7FDC01
/-- The registers that a mask selects, in ascending order; M12 to M15 read zero. -/
def quoteRegs (s : State) (mask : BitVec 16) : List Byte :=
  ((List.range 16).filter (fun i => mask.getLsbD i)).flatMap (fun i => bytes64 (if 12 ≤ i then 0 else s.mreg i))
/-- A quote without its signature (Table 18.2a), with the encapsulation key of a draw. -/
def quoteBody (s : State) (nonce : BitVec 256) (mask : BitVec 16) (draw : Nat) : List Byte :=
  natLe 32 nonce.toNat ++ natLe 2 mask.toNat ++ natLe 2 1 ++ natLe 2 Config.orderCode.toNat ++ natLe 4 s.sec.rollback.toNat
  ++ natLe 4 (bundleVer s).toNat ++ natLe 4 (secStatus s).toNat ++ natLe 8 (islandTime s srcMp) ++ natLe 8 Config.serial.toNat
  ++ natLe 4 Config.stepping.toNat ++ natLe 4 idPart.toNat ++ ownerDigest s ++ natLe 4 (idStart s).toNat ++ natLe 2 0
  ++ quoteRegs s mask ++ fixLen 1184 (Config.encapKey draw)
/-- A signed quote. -/
def quoteBytes (s : State) (nonce : BitVec 256) (mask : BitVec 16) (draw : Nat) : List Byte :=
  let b := quoteBody s nonce mask draw
  b ++ fixLen 3309 (Config.attestSign b)
/-- QUOTE: the decapsulation key is kept for 10 s, for this instance. -/
def execQuote (m : MboxId) (tag : W32) (nonce : BitVec 256) (mask : BitVec 16) (s : State) : Out :=
  request m 2 tag s (fun s =>
    if s.sec.identityLost then respond s m 2 tag 0 stSecNoIdentity []
    else
      let b := quoteBytes s nonce mask s.free
      (respond (s.modMbox m (fun x => { x with quote := some (nonce, s.now, s.free, b) })) m 2 tag 0 stOk b).drew 1)
/-- SESSION_OPEN: K from the shared secret, the quote and the ciphertext; the decapsulation key is erased. -/
def execSessionOpen (m : MboxId) (tag : W32) (nonce : BitVec 256) (ciphertext : List Byte) (s : State) : Out :=
  request m 3 tag s (fun s =>
    match (s.mbox m).quote with
    | some (n, t, d, b) =>
      if n ≠ nonce ∨ t + 10000000000 < s.now ∨ s.sec.identityLost then logAuthFail (respond s m 3 tag 0 stSecAuth []) m 3
      else
        let used := s.sec.mbox.filterMap (fun x => x.session.map (fun k => k.id))
        let id := freshId s.free (0 :: used)
        let key := Config.shake256 (Config.decap d ciphertext ++ bytes64 (Config.shake256 (b ++ ciphertext)))
        let k : Session := { id := id, counter := 0, sent := 1, lastAt := s.now, key := key, nonce := nonce }
        (respond (s.modMbox m (fun x => { x with session := some k, quote := none })) m 3 tag id stOk (natLe 4 id.toNat)).drew 1
    | none => logAuthFail (respond s m 3 tag 0 stSecAuth []) m 3)
/-- SESSION_CLOSE. -/
def execSessionClose (m : MboxId) (tag sid : W32) (counter : W64) (authentic : Bool) (s : State) : Out :=
  inSession m 4 tag sid counter authentic s (fun s _ =>
    (respondSealed s m 4 tag stOk []).modMbox m (fun x => { x with session := none }))
/-- SESSION_IDLE_TIMEOUT. -/
def execSessionIdleTimeout (m : MboxId) (s : State) : Out :=
  .next (
    match (s.mbox m).session with
    | some k => if k.lastAt + 60000000000 ≤ s.now then s.modMbox m (fun x => { x with session := none }) else s
    | none => s)
/-- DECAPSULATION_KEY_EXPIRY. -/
def execDecapsulationKeyExpiry (m : MboxId) (s : State) : Out :=
  .next (
    match (s.mbox m).quote with
    | some (_, t, _, _) => if t + 10000000000 ≤ s.now then s.modMbox m (fun x => { x with quote := none }) else s
    | none => s)

/-! ## Owners, responses, registers, keys (R356, R464, R469) -/

/-- Whether the current owner signed a value and the session's nonce. -/
def ownerSigned (s : State) (k : Session) (value signature : List Byte) : Bool :=
  match s.sec.owner with
  | some key => Config.verify key (value ++ natLe 32 k.nonce.toNat) signature
  | none => false
/-- OWNER_SET: the first key needs no signature; a zero key removes the owner. -/
def execOwnerSet (m : MboxId) (tag sid : W32) (counter : W64) (authentic : Bool) (key signature : List Byte) (s : State) : Out :=
  inSession m 0x10 tag sid counter authentic s (fun s k =>
    if s.sec.owner.isSome ∧ ownerSigned s k key signature = false then respondSealed s m 0x10 tag stSecAuth []
    else
      let new : Option (List Byte) := if key.all (fun b => b == 0) then none else some key
      let s := extendConfig { s with sec := { s.sec with owner := new } }
      let s := s.log secOwnerChange srcSp 0 0 none (byteWords (ownerDigest s) 4)
      respondSealed s m 0x10 tag stOk [])
/-- The responses that cannot be disabled. -/
def lockedMask : BitVec 6 := if isWs then 0x3F else Config.lockable
/-- TAMPER_SET. -/
def execTamperSet (m : MboxId) (tag sid : W32) (counter : W64) (authentic : Bool) (mask : BitVec 16) (signature : List Byte) (s : State) : Out :=
  inSession m 0x11 tag sid counter authentic s (fun s k =>
    let want : BitVec 6 := mask.setWidth 6
    if ownerSigned s k (natLe 2 mask.toNat) signature = false then respondSealed s m 0x11 tag stSecAuth []
    else if isWs ∧ want ≠ 0x3F then respondSealed s m 0x11 tag stSecLocked []
    else
      let new := (want &&& ~~~lockedMask) ||| (s.sec.enabled &&& lockedMask)
      let old := s.sec.enabled
      let s : State := { s with sec := { s.sec with enabled := new } }
      let s := if new = old then s else (extendConfig s).log secResponseChanged srcSp 0 0 none [old.setWidth 64, new.setWidth 64]
      respondSealed s m 0x11 tag stOk [])
/-- EXTEND: M8 to M11. -/
def execExtend (m : MboxId) (tag sid : W32) (counter : W64) (authentic : Bool) (reg : BitVec 8) (value : BitVec 512) (s : State) : Out :=
  inSession m 0x12 tag sid counter authentic s (fun s _ =>
    if reg.toNat < 8 ∨ 11 < reg.toNat then respondSealed s m 0x12 tag stSecFormat []
    else
      let s := extendReg s reg.toNat (bytes64 value)
      respondSealed s m 0x12 tag stOk (bytes64 (s.mreg reg.toNat)))
/-- CAK_INSTALL: the key of every port in the mask; an empty mask is malformed. -/
def execCakInstall (m : MboxId) (tag sid : W32) (counter : W64) (authentic : Bool) (ports : W32) (ckn : BitVec 128) (cak : BitVec 256)
    (s : State) : Out :=
  inSession m 0x13 tag sid counter authentic s (fun s _ =>
    if ports = 0 then respondSealed s m 0x13 tag stSecFormat []
    else
      let hit := (List.range 32).filter (fun i => ports.getLsbD i)
      let keep := s.sec.caks.filter (fun x => !(hit.contains x.1))
      let s : State := { s with sec := { s.sec with caks := keep ++ hit.map (fun i => (i, ckn, cak)) } }
      let s := hit.foldl (fun (s : State) i => s.modPort (Fin.ofNat 32 i) (fun (x : Port) => { x with ckn := some ckn })) s
      respondSealed s m 0x13 tag stOk [])

/-! ## Bundles and dumps (R393, R466) -/

/-- The state with the verification state of the slot not running. -/
def setOther (s : State) (ver : Nat) : State :=
  { s with fw := if s.fw.running then { s.fw with verA := ver } else { s.fw with verB := ver } }
/-- BUNDLE_WRITE: into the slot that is not running. -/
def execBundleWrite (m : MboxId) (tag sid : W32) (counter : W64) (authentic : Bool) (offset : W32) (bytes : List Byte) (s : State) : Out :=
  inSession m 0x14 tag sid counter authentic s (fun s _ =>
    if 15360 < bytes.length then respondSealed s m 0x14 tag stSecImage []
    else if isWs ∧ Config.showsUnvalidated offset.toNat bytes then respondSealed s m 0x14 tag stSecLocked []
    else
      let put := (bytes.zipIdx).foldl (fun (b : SMap Byte) x => smSet b (offset.toNat + x.2) x.1) s.sec.bundle
      let s := setOther { s with sec := { s.sec with bundle := put, bundleBad := false } } 0
      respondSealed s m 0x14 tag stOk (natLe 4 bytes.length))
/-- BUNDLE_CHECK: 1 usable, 2 bad signature, 3 below the rollback counter. -/
def execBundleCheck (m : MboxId) (tag sid : W32) (counter : W64) (authentic : Bool) (s : State) : Out :=
  inSession m 0x15 tag sid counter authentic s (fun s _ =>
    let b := s.sec.bundle
    let good := Config.bundleSig b && (!isWs || Config.bundleValidated b) && !s.sec.bundleBad
    let roll := Config.bundleRoll b
    let v := Config.bundleVersion b
    if good = false then respondSealed (setOther s 2) m 0x15 tag stSecImage (natLe 4 2)
    else if roll.ult s.sec.rollback then respondSealed (setOther s 3) m 0x15 tag stSecRollback (natLe 4 3)
    else
      let s := setOther s 1
      let s : State := { s with fw := if s.fw.running then { s.fw with rollA := roll, bundleA := v } else { s.fw with rollB := roll, bundleB := v } }
      respondSealed s m 0x15 tag stOk (natLe 4 1))
/-- A byte of an archived dump. -/
def dumpByte (e : Nat × Dump) (i : Nat) : Byte := BitVec.ofNat 8 (bits (dumpWordAt e.1 e.2 (i / 8)) (i % 8 * 8) 8)
/-- DUMP_READ. -/
def execDumpRead (m : MboxId) (tag sid : W32) (counter : W64) (authentic : Bool) (entry : BitVec 16) (offset : W32) (s : State) : Out :=
  inSession m 0x16 tag sid counter authentic s (fun s _ =>
    match s.fw.archive[entry.toNat]? with
    | none => respondSealed s m 0x16 tag stSecFormat []
    | some e => respondSealed s m 0x16 tag stOk (part8k 65536 (dumpByte e) offset.toNat))
/-- The codes of Table 18.2. -/
def knownCodes : List Nat := [1, 2, 3, 4, 0x10, 0x11, 0x12, 0x13, 0x14, 0x15, 0x16]
/-- UNKNOWN_MAILBOX_COMMAND. -/
def execUnknownMailboxCommand (m : MboxId) (tag : W32) (code : BitVec 16) (s : State) : Out :=
  if knownCodes.contains code.toNat then .next s
  else request m code.toNat tag s (fun s => respond s m code.toNat tag 0 stSecFormat [])

/-! ## Entropy, tamper, erase (R462, R470-R472) -/

/-- ENTROPY_HEALTH_FAIL: handled as an SP restart. -/
def execEntropyHealthFail (s : State) : Out := .next (if canRestart s 1 then restartWith s 1 (causeOf .assertion) else s)

/-- The bit of an input in the order of Table 18.3. -/
def tamperBit : TamperInput → Nat
  | .lid => 0 | .seating => 1 | .mesh => 2 | .voltage => 3 | .clock => 4 | .temperature => 5
/-- Whether an input is physical. -/
def physical (i : TamperInput) : Bool := decide (tamperBit i < 3)
/-- The set Z is zeroised; a physical input destroys the identity as well (Table 18.4, step 2). -/
def zeroise (s : State) (phys : Bool) : State :=
  let close (x : Mbox) : Mbox :=
    if x.session.isSome then { x with session := none, quote := none, busy := false, done := true, status := stSecNoSession }
    else { x with quote := none, busy := false }
  let drop (x : Port) : Port := { x with ckn := none }
  { s with
    sec := { s.sec with farKeys := none, caks := [], mbox := s.sec.mbox.map close, zeroised := true,
                        identityLost := s.sec.identityLost || phys, bundleBad := s.sec.bundleBad || !s.sec.bundle.isEmpty },
    net := { s.net with ports := s.net.ports.map drop }, farMem := [] }
/-- Every core store, packet buffer, journal and dump slot is cleared; retained domains go off (step 6). -/
def clearDies (s : State) : State :=
  let s := islandsOff s
  let clean (x : Nat × Core) : Nat × Core := (x.1, { x.2 with undef := [] })
  let empty (p : Proc) : Proc := { p with dumps := [Dump.reset, Dump.reset] }
  let buf (b : PktBuf) : PktBuf := { b with held := List.replicate 16 0 }
  { s with cores := s.cores.map clean, procs := s.procs.map empty, sched := { s.sched with hists := [] },
           net := { s.net with early := [], bufs := s.net.bufs.map buf } }
/-- Secure ports drop at once, the others carry a withdraw of scope 1 (step 5). -/
def dropSecure (s : State) : State := (allPorts.filter (fun p => (s.port p).secure && (s.port p).st == 2)).foldl portDown s
/-- Slices leave self-refresh to be erased. -/
def wakeSlices (s : State) : State :=
  let wake (x : Nat × Slice) : Nat × Slice := (x.1, { x.2 with selfRefresh := false })
  { s with slices := s.slices.map wake }
/-- The response of Table 18.4 to a trip. -/
def tamper (s : State) (i : TamperInput) : State :=
  let restart := s.sec.erasing.isNone || !s.sec.zeroised
  let lost := physical i && !s.sec.identityLost
  let s := zeroise s (physical i)
  let s := if lost then extendLife s else s
  let s := if s.err.safe then s else withdrawAll (dropSecure (stopAll s))
  let s : State := if restart then wakeSlices { s with sec := { s.sec with erasing := some s.now } } else s
  let s := clearDies (if s.err.safe then s else safeDescs s)
  let s := s.log secTamper srcMp 0 0 none [s.sec.tripped.setWidth 64]
  let s := s.log secZeroised srcSp 0 0 none [if s.sec.identityLost then 1 else 0]
  if s.err.safe then s else safeState s 12
/-- TAMPER_TRIP: the input is latched; an enabled response runs. Without power the physical switches latch passively; the glitch monitors
need the standby stage, armed. -/
def execTamperTrip (i : TamperInput) (s : State) : Out :=
  .next (
    let b := BitVec.ofNat 6 (2 ^ tamperBit i)
    if s.start.phase = .off then
      (if physical i then { s with start := { s.start with latches := s.start.latches ||| b.setWidth 3 } } else s)
    else if physical i = false ∧ s.start.armed = false then s
    else
      let s : State := { s with sec := { s.sec with tripped := s.sec.tripped ||| b } }
      if s.sec.enabled &&& b = 0 then s else tamper s i)
/-- ERASE_COMPLETE: every slice holds zero data with valid check words; after a trip the slices then rest. -/
def execEraseComplete (s : State) : Out :=
  .next (
    match s.sec.erasing with
    | none => s
    | some t =>
      let s : State := { s with dram := [], sec := { s.sec with erasing := none } }
      if s.sec.zeroised then (slicesRest s).log secEraseDone srcMp 0 0 none [w64 (s.now - t), 0] else s)

end Sys2Proof.Machine
end

