-- ==== Sys2Proof/Machine/Start.lean ====
section
/-! DEFINITION. Power, PERST_N, headwater boot, start-up (R324, R393, R416, R456, R462-R464, R484, R485, R495, R496, R501-R503). -/

namespace Sys2Proof.Machine

/-! ## Reset (R484, R398) -/

/-- A core after a start: its fences stay; the island counter goes on across a warm start and is 0 at a cold one (R307). -/
def Core.restarted (k : Core) (now tick : Nat) : Core :=
  { Core.reset with
    fenced := k.fenced, sampler := { Core.reset.sampler with fenced := k.sampler.fenced },
    groups := k.groups.map (fun (g : Group) => { Group.reset with fence := g.fence, dead := g.dead }),
    tickBase := tick, tickSince := now }
/-- A channel after a start: a lost one stays lost. -/
def Chan.restarted (x : Chan) : Chan := { Chan.reset with lost := x.lost }
/-- A slice after a start: lost channels, unit fences and the repair map stay; the scrub's progress across a warm start. -/
def Slice.restarted (k : Slice) (cold : Bool) : Slice :=
  { Slice.reset with
    chans := k.chans.map Chan.restarted, repairs := k.repairs, scrub := if cold then Slice.reset.scrub else k.scrub,
    units := (k.units.filter (fun x => x.2.fencedU)).map (fun x => (x.1, { BankUnit.reset with st := .fenced, fencedU := true })) }
/-- A link before it trains again: its width and spares stay until the next cold start (R315). -/
def Link.restarted (k : Link) (cold : Bool) : Link :=
  if cold then Link.reset
  else { k with st := (if k.st = 3 then 3 else 0), fwd := LinkDir.reset, rev := LinkDir.reset, named := none, quiesceReq := false, diagnose := false }
/-- A processor after a start: the fields of Table 19.1 stay across a warm one. -/
def Proc.restarted (p : Proc) (cold : Bool) : Proc :=
  if cold then Proc.reset else { Proc.reset with total := p.total, dumps := p.dumps, dumpLost := p.dumpLost }
/-- A partition at reset without fenced cores. -/
def Part.inService (out : Nat → Bool) (p : Part) : Part := { p with cores := p.cores.filter (fun n => !(out n)) }
/-- The image slots and the dump archive, which lie in flash. -/
def Fw.restarted (f : Fw) (cold : Bool) : Fw :=
  { Fw.reset with
    trial := f.trial, running := f.running, committed := f.committed, verA := f.verA, verB := f.verB, bundleA := f.bundleA, bundleB := f.bundleB,
    rollA := f.rollA, rollB := f.rollB, next := f.next, archive := f.archive, rotations := if cold then 0 else f.rotations }
/-- The SP's own memory after a start. -/
def Sec.restarted (x : Sec) (cold : Bool) : Sec :=
  { Sec.reset with
    identityLost := x.identityLost, owner := x.owner, enabled := x.enabled, rollback := x.rollback, keysGen := x.keysGen, bundle := x.bundle,
    bundleBad := x.bundleBad, zeroised := x.zeroised, tripped := if cold then 0 else x.tripped }
/-- Failed sensors and derated towers stay until a cold start (R423, R432). -/
def Thm.restarted (t : Thm) (cold : Bool) : Thm :=
  let failed : SMap Sensor := (t.sensors.filter (fun x => x.2.st == 2)).map (fun x => (x.1, { Sensor.reset with st := 2 }))
  let derated (x : TowerThm) : TowerThm := { TowerThm.reset with derated := x.derated }
  if cold then Thm.reset
  else { Thm.reset with fastStops := t.fastStops, sensors := failed, towers := t.towers.map derated }
/-- Fences, the marks for retest, and across a warm start the device log. -/
def Err.restarted (e : Err) (cold : Bool) : Err :=
  if cold then { Err.reset with fences := e.fences, marks := e.marks }
  else { Err.reset with fences := e.fences, marks := e.marks, entries := e.entries, nextIndex := e.nextIndex, overflow := e.overflow,
                        unmapped := e.unmapped, sources := e.sources }
/-- Reset: every field takes its reset value, but for what flash keeps and, at a warm start, the fields of Table 19.1. -/
def State.restarted (s : State) (cold : Bool) (start : Start) : State :=
  let core (c : CoreId) : Nat × Core := (c.val, (s.core c).restarted s.now (if cold then 0 else coreTime s c))
  let slice (x : Nat × Slice) : Nat × Slice := (x.1, x.2.restarted cold)
  let link (k : Link) : Link := k.restarted cold
  let proc (p : Proc) : Proc := p.restarted cold
  let count (k : Fn) (r : Fn) : Fn := { r with helloCount := if cold then 0 else k.helloCount }
  let out (n : Nat) : Bool := (s.core (Fin.ofNat 512 n)).fenced || s.fencedTowers.contains (n / 64)
  { State.reset with
    pending := s.pending, now := s.now, free := s.free, hostMem := s.hostMem, msix := s.msix,
    cores := everyCore.map core, slices := s.slices.map slice, dram := s.dram,
    map := { MapSt.reset with epoch := if cold then 0 else s.map.epoch },
    mem := { MemRegs.reset with scrubPasses := (if cold then 0 else s.mem.scrubPasses), ceCount := if cold then 0 else s.mem.ceCount },
    links := s.links.map link, fencedTowers := s.fencedTowers, fns := List.zipWith count s.fns State.reset.fns,
    parts := partsReset.map (Part.inService out), net := { Net.reset with out := s.net.out },
    procs := s.procs.map proc, fw := s.fw.restarted cold, thm := s.thm.restarted cold, err := s.err.restarted cold,
    sec := s.sec.restarted cold, start := start }

/-! ## Supply (R495, R496, R501, R503) -/

/-- The thresholds of Table 20.3 in mV: each lies within its range. -/
def turnOnMv : Nat := 39000 + Config.threshold 0 % 1001
def turnOffMv : Nat := 37500 + Config.threshold 1 % 1001
def overMv : Nat := 61000 + Config.threshold 2 % 2001
/-- A cold start begins: the standby stage is powered and the glitch monitors are armed. With PERST_N released t0 is now. -/
def coldStart (s : State) (mv : Nat) (latches : BitVec 3) : State :=
  let x := s.start
  s.restarted true { Start.reset with
    phase := (if x.perst then .standby else .starting), perst := x.perst, mv := mv, latches := x.latches ||| latches, perstAt := x.perstAt }
/-- POWER_ON: the input crosses the turn-on threshold. -/
def execPowerOn (millivolts : Nat) (latches : BitVec 3) (s : State) : Out :=
  .next (if s.start.phase = .off ∧ s.start.overvoltage = false ∧ turnOnMv ≤ millivolts ∧ millivolts ≤ overMv then coldStart s millivolts latches else s)
/-- The module stops and keeps no state but what flash and the passive latches hold (R416). -/
def moduleStop (s : State) (mv : Nat) (above : Bool) : State :=
  { s.restarted true { Start.reset with
      phase := .off, perst := s.start.perst, perstAt := s.start.perstAt, mv := mv, armed := false, overvoltage := above, latches := s.start.latches }
    with dram := [], coreStore := [] }
/-- INPUT_UNDERVOLTAGE. -/
def execInputUndervoltage (millivolts : Nat) (s : State) : Out :=
  .next (if s.start.phase ≠ .off ∧ millivolts < turnOffMv then moduleStop s millivolts false else s)
/-- INPUT_OVERVOLTAGE. -/
def execInputOvervoltage (millivolts : Nat) (s : State) : Out :=
  .next (if s.start.phase ≠ .off ∧ overMv < millivolts then moduleStop s millivolts true else s)
/-- INPUT_OVERVOLTAGE_RETURN: below 60 V the stages turn on again. -/
def execInputOvervoltageReturn (millivolts : Nat) (s : State) : Out :=
  .next (if s.start.phase = .off ∧ s.start.overvoltage ∧ millivolts < 60000 ∧ turnOnMv ≤ millivolts then coldStart s millivolts 0 else s)
/-- A tower's islands and near-bank layers go off with their stage. -/
def towerOff (s : State) (t : TowerId) : State :=
  let s := (towerCores t).foldl (fun (s : State) (c : CoreId) =>
    let s := abortUnits s c
    (s.setCore c ((s.core c).off c.val s.now s.free)).modSlice c Slice.unitsOff) s
  ({ s with pwr := { s.pwr with nearBank := s.pwr.nearBank.set t.val .off } }).drew 512
/-- STAGE_FAULT: a tower is fenced, an IO die sends Kegor to SAFE, the standby stage stops the module (R416). -/
def execStageFault (n : StageId) (faultStatus : BitVec 16) (s : State) : Out :=
  .next (
    if s.start.phase = .off ∨ (s.stage n).on = false then s
    else if n.val = 10 then moduleStop s s.start.mv false
    else
      let s := s.modStage n (fun x => { x with on := false, pending := none, queued := none })
      let s := s.log pwrStageFault srcMp (locDie n.val) 0 none [w64 n.val, faultStatus.setWidth 64]
      if n.val < 8 then
        let t : TowerId := Fin.ofNat 8 n.val
        towerOff (fenceTower s t .stageFault) t
      else safeNow s 5)

/-! ## PERST_N (R324, R484, R503) -/

/-- PERST_DEASSERT: t0 of Table 12.3. The link trains; boot, scrub and start-up follow. -/
def execPerstDeassert (s : State) : Out :=
  .next (
    let x := s.start
    if x.perst = false then s
    else match x.phase with
      | .standby =>
        let n := if x.warmNext ∧ x.warmStarts ≠ 0xFFF then x.warmStarts + 1 else x.warmStarts
        { s with start := { x with perst := false, perstAt := s.now, phase := .starting, warm := x.warmNext, warmStarts := n } }
      | _ => { s with start := { x with perst := false, perstAt := s.now } })
/-- PERST_ASSERT: whatever is in progress is abandoned and the module is held in reset; the cause of a SAFE in force is kept. -/
def execPerstAssert (s : State) : Out :=
  .next (
    let x := s.start
    if x.perst then s
    else if x.phase = .off then { s with start := { x with perst := true, perstAt := s.now } }
    else s.restarted false { x with
      phase := .standby, perst := true, perstAt := s.now, warmNext := true,
      safeCause := if s.err.safe then s.err.cause else 0 })

/-! ## Headwater boot (R393, R394, R456, R462, R463) -/

/-- Whether a slot is usable, as FW_IMAGE_STATUS shows it: 1 usable, 2 bad signature, 3 below the rollback counter. -/
def slotVer (s : State) (c : SlotCheck) : Nat :=
  if c.sigOk = false ∨ (isWs ∧ c.validated = false) then 2 else if c.rollback.ult s.sec.rollback then 3 else 1
/-- The resource of a fence returns to service. -/
def unfence (s : State) (f : FenceId) : State :=
  let c : CoreId := Fin.ofNat 512 f.index
  let s : State := { s with err := { s.err with fences := s.err.fences.filter (· != f) } }
  match f.kind with
  | 0 => s.modCore c (fun k => k.modGroup (Fin.ofNat 8 (f.sub / 16)) (fun g => { g with fence := g.fence &&& ~~~(BitVec.ofNat 16 (2 ^ (f.sub % 16))) }))
  | 1 => s.modCore c (fun k => k.modGroup (Fin.ofNat 8 f.sub) (fun g => { g with dead := false }))
  | 2 => s.modCore c (fun k => { k with fenced := false })
  | 3 => s.modUnit c (Fin.ofNat 64 f.sub) (fun u => { u with fencedU := false, st := .idle })
  | 4 => s.modChan c (Fin.ofNat 4 f.sub) (fun x => { x with lost := false })
  | 5 => { s with fencedTowers := s.fencedTowers.filter (· != f.index) }
  | _ => s.modCore c (fun k => { k with sampler := { k.sampler with fenced := false } })
/-- The location of a fenced resource. -/
def locFence (f : FenceId) : W64 :=
  let c : CoreId := Fin.ofNat 512 f.index
  match f.kind with
  | 0 => locArray c (Fin.ofNat 8 (f.sub / 16)) (f.sub % 16)
  | 1 => locArray c (Fin.ofNat 8 f.sub) 0
  | 3 => locUnit c (Fin.ofNat 64 f.sub)
  | 4 => locChan c (Fin.ofNat 4 f.sub)
  | 5 => locDie f.index
  | _ => loc 3 (c.val * 2 ^ 48)
/-- The event of a fence (Table 17.7). -/
def fenceEv (f : FenceId) : Ev :=
  match f.kind with
  | 0 => evArrayFenced | 1 => evGroupFenced | 2 => errCoreFenced | 3 => nbuFenced | 4 => memChannelLost | 5 => evTowerFenced | _ => evSoundingFault
/-- The retest of a mark at a cold start. -/
def retest (pass : Bool) (s : State) (f : FenceId) : State :=
  if pass then (unfence s f).log errFenceCleared srcMp (locFence f) 0 none [w64 f.kind, w64 f.index, w64 f.sub]
  else s.log (fenceEv f) srcMp (locFence f)
/-- The marks are retested at a cold start, and wait at a warm one. -/
def retestAll (s : State) (pass : Bool) : State :=
  if s.start.warm then s
  else
    let s := s.err.marks.foldl (retest pass) { s with err := { s.err with marks := [] } }
    -- a core that returned to service is in partition 0 again
    let out (n : Nat) : Bool := (s.core (Fin.ofNat 512 n)).fenced || s.fencedTowers.contains (n / 64)
    { s with parts := partsReset.map (Part.inService out) }
/-- The measurements of a boot (Table 18.1). -/
def measureBoot (s : State) (slot : Bool) (c : SlotCheck) : State :=
  let s : State := { s with sec := { s.sec with regs := List.replicate 16 0 } }
  let s := extendReg s 0 (Config.measured 0 [])
  let s := ([1, 2, 3, 4] : List Nat).foldl (fun (s : State) i => extendReg s i (Config.imageHash slot i)) s
  let s := extendReg s 5 (Config.measured 5 [if slot then 1 else 0, c.version.toNat, c.rollback.toNat])
  extendLife (extendConfig s)
/-- A usable slot boots: measurement, fresh far-tier keys, the erase, then the other processors are released. -/
def bootSlot (s : State) (slot other : Bool) (c : SlotCheck) (pass : Bool) : State :=
  let s := layMap s
  let s := measureBoot s slot c
  let rolled := other || s.fw.trial
  let left := if other then !slot else !s.fw.committed
  let trial := slot != s.fw.committed
  let run (p : Proc) : Proc := { p with st := .running }
  let s : State := { s with
    fw := { s.fw with running := slot, trial := trial, next := s.fw.committed },
    sec := { s.sec with farKeys := some s.sec.keysGen, keysGen := s.sec.keysGen + 1, erasing := some s.now, zeroised := false },
    farMem := [], procs := s.procs.map run,
    start := { s.start with phase := .booted } }
  let s := logMeasured s
  let s := if rolled then s.log fwRollback srcSp (locProc 1) 0 none [if left then 1 else 0, if other then 0 else 1] else s
  let s := if trial then s.log fwImageTrial srcSp (locProc 1) 0 none [if slot then 1 else 0, c.version.setWidth 64] else s
  retestAll s pass
/-- No usable slot: no processor but the SP runs, the PF reads SAFE (R393). -/
def bootNone (s : State) : State :=
  let off (x : Proc × Nat) : Proc := if x.2 = 1 then x.1 else { x.1 with st := .off }
  let s : State := { s with procs := s.procs.zipIdx.map off, start := { s.start with phase := .booted } }
  let safe (x : Fn × Nat) : Fn := if x.2 = 0 then { x.1 with before := .ready, st := .safe } else x.1
  let s : State := { s with
    err := { s.err with safe := true, cause := 10, safeAt := some s.now }, fns := s.fns.zipIdx.map safe,
    sec := { s.sec with erasing := some s.now } }
  s.log errSafeEnter srcSp 0 0 none [10]
/-- HEADWATER_BOOT: latches, self-test, slot choice, measurement, keys, erase, release. -/
def execHeadwaterBoot (selftest : Bool) (a b : SlotCheck) (retestPass : Bool) (s : State) : Out :=
  .next (
    if s.start.phase ≠ .starting ∨ s.start.perst ∨ (s.proc 1).st = .heldDown then s
    else
      let l := s.start.latches
      let s : State := if l &&& s.sec.enabled.setWidth 3 = 0 then s else
        zeroise { s with sec := { s.sec with tripped := s.sec.tripped ||| l.setWidth 6 }, start := { s.start with latches := 0 } } true
      if selftest = false then
        let s := restartProc { s with sec := { s.sec with selftest := 2 } } 1 (causeOf .assertion)
        if (s.proc 1).st = .heldDown then safeState s 4 else s
      else
        let want := if s.fw.trial then s.fw.committed else s.fw.next
        let first := if want then b else a
        let second := if want then a else b
        let v1 := slotVer s first
        let v2 := slotVer s second
        let shown (slot : Bool) : Nat := if slot = want then v1 else if v1 = 1 then 0 else v2
        let s : State := { s with
          sec := { s.sec with selftest := 1 },
          procs := s.procs.modify 1 (fun p => { p with st := .running }),
          fw := { s.fw with verA := shown false, verB := shown true, bundleA := a.version, bundleB := b.version, rollA := a.rollback, rollB := b.rollback } }
        if v1 = 1 then bootSlot s want false first retestPass
        else if v2 = 1 then bootSlot s (!want) true second retestPass
        else bootNone s)
/-- STARTUP_READY: loops locked, links trained, every slice erased: the PF is READY. With the flow below 1.8 L/min the orderly stop starts. -/
def execStartupReady (s : State) : Out :=
  .next (
    if s.start.phase ≠ .booted ∨ s.sec.erasing.isSome ∨ s.clks.any (fun k => !k.locked) ∨ s.links.any (fun k => k.st == 0) then s
    else
      let s := logSel { s with start := { s.start with phase := .service } } 0
      if s.err.safe then s
      else
        let s := s.modFn 0 (fun k => if k.st = .init then { k with st := .ready } else k)
        if flowShort s then safeOrderly { s with thm := { s.thm with coolSt := 2 } } 1 else s)
/-- HOT_RESET: an FLR of every function, and the host link retrains; it is no start (R485). -/
def execHotReset (s : State) : Out :=
  .next (
    if s.start.phase ≠ .service then s
    else (List.range 16).foldl (fun (s : State) i => startFlr s (Fin.ofNat 16 i)) s)

end Sys2Proof.Machine
end

