-- ==== Sys2Proof/Machine/Regs.lean ====
section
/-! DEFINITION. The setup register map of BAR0: offsets, agents, fields, reads, writes, and the commands that write a register
(R13-R17, R190, R477-R491). -/

namespace Sys2Proof.Machine

/-! ## The map (Tables 19.2-19.5) -/

/-- The registers and window words of BAR0. -/
inductive Reg where
  | idMagic | idPart | idOrder | idStepping | idSerialLo | idSerialHi | idBundle | idStart | idFunc
  | hostLo | hostHi | hello | ringStatus | ringVersion | wake | pollCfg
  | unmapped | logStatus | logCfg | logSel | logAck | fenceClear | fencePending | safeStatus | safeReq | linkCfg | linkSel | linkStatus
  | weirCfg (p : Nat) | weirCommit | weirStatus
  | throttle | retrainCfg | repairCfg | scrubCfg | scrubStatus | ceCount | mapCfg | mapEpoch | mapStatus | mapSpare | farCfg
  | farStatus (p : FarPort) | farCap (p : FarPort)
  | ctCtl | ctSlice | ctLoc | ctCheck | ctGo | ctSynd | ctResult | ctStatus | ctData (k : Nat)
  | nbuCfg | nbuClassB | fenceSel | fenceMap (hi : Bool) | nbuActive
  | coolCfg | rotCfg | coolTemp | coolFlow | coolReq | sensorSel | sensorValue | towerSel | towerStatus | thmStatus
  | capCfg | capStatus | pkgPower | idleCfg | domainSel | domainStatus
  | laneCfg | portEn | portSel | portStatus | macsecCfg | moduleId | netAddr (k : Nat) | netGw (k : Nat) | addrCfg | transport | ccCfg
  | peerBase (hi : Bool) | peerCount | bufCfg | collCfg | bufLimit (p : Nat)
  | syncCfg | syncReq | wdtCfg | procSel | procStatus | holdClear | dumpSel | dumpStatus | dumpAck | imageStatus | imageVer (b : Bool)
  | imageCtl | schedCfg | schedStatus
  | secStatus | tamperCfg | tamperStatus | mboxCtl | mboxStatus
  | logData (w : Nat) | dumpData (w : Nat) | mboxData (w : Nat)
  deriving DecidableEq, Repr

/-- Registers at consecutive offsets from a base. -/
def regsFrom (base : Nat) (l : List Reg) : List (Nat × Reg) := l.zipIdx.map (fun x => (base + 4 * x.2, x.1))
/-- The registers of a block, by offset within it (Tables 19.3, 19.5). -/
def blockRegs : Nat → List (Nat × Reg)
  | 0x00 => regsFrom 0 [.idMagic, .idPart, .idOrder, .idStepping, .idSerialLo, .idSerialHi, .idBundle, .idStart, .idFunc]
  | 0x01 => regsFrom 0 [.hostLo, .hostHi, .hello, .ringStatus, .ringVersion, .wake, .pollCfg]
  | 0x10 => regsFrom 0 [.unmapped, .logStatus, .logCfg, .logSel, .logAck, .fenceClear, .fencePending, .safeStatus, .safeReq, .linkCfg,
                        .linkSel, .linkStatus] ++ regsFrom 0x100 ((List.range 32).map .logData)
  | 0x20 => regsFrom 0 ((List.range 16).map .weirCfg) ++ regsFrom 0x40 [.weirCommit, .weirStatus]
  | 0x30 => regsFrom 0 [.throttle, .retrainCfg, .repairCfg, .scrubCfg, .scrubStatus, .ceCount]
            ++ regsFrom 0x20 [.mapCfg, .mapEpoch, .mapStatus, .mapSpare, .farCfg, .farStatus 0, .farStatus 1, .farCap 0, .farCap 1]
            ++ regsFrom 0x100 [.ctCtl, .ctSlice, .ctLoc, .ctCheck, .ctGo, .ctSynd, .ctResult, .ctStatus]
            ++ regsFrom 0x120 ((List.range 8).map .ctData)
  | 0x40 => regsFrom 0 [.nbuCfg, .nbuClassB, .fenceSel, .fenceMap false, .fenceMap true, .nbuActive]
  | 0x50 => regsFrom 0 [.coolCfg, .rotCfg, .coolTemp, .coolFlow, .coolReq, .sensorSel, .sensorValue, .towerSel, .towerStatus, .thmStatus]
  | 0x60 => regsFrom 0 [.capCfg, .capStatus, .pkgPower, .idleCfg, .domainSel, .domainStatus]
  | 0x70 => regsFrom 0 [.laneCfg, .portEn, .portSel, .portStatus, .macsecCfg, .moduleId]
            ++ regsFrom 0x18 ((List.range 4).map .netAddr) ++ regsFrom 0x28 ((List.range 4).map .netGw)
            ++ regsFrom 0x38 [.addrCfg, .transport, .ccCfg, .peerBase false, .peerBase true, .peerCount, .bufCfg, .collCfg]
            ++ regsFrom 0x80 ((List.range 16).map .bufLimit)
  | 0x80 => regsFrom 0 [.syncCfg, .syncReq, .wdtCfg, .procSel, .procStatus, .holdClear, .dumpSel, .dumpStatus, .dumpAck, .imageStatus,
                        .imageVer false, .imageVer true, .imageCtl, .schedCfg, .schedStatus]
  | 0x90 => regsFrom 0 [.secStatus, .tamperCfg, .tamperStatus, .mboxCtl, .mboxStatus]
  | _ => []
/-- The register that holds an offset of a function's BAR0; none where the offset is unassigned (R14, R487, R489). -/
def regAt (f : FnId) (off : Nat) : Option Reg :=
  if f ≠ 0 ∧ 0x2000 ≤ off then none
  else if 0x100000 ≤ off ∧ off < 0x110000 then some (.dumpData ((off - 0x100000) / 4))
  else if 0x120000 ≤ off ∧ off < 0x124000 then some (.mboxData ((off - 0x120000) / 4))
  else ((blockRegs (off / 4096)).find? (fun x => x.1 == off % 4096 / 4 * 4)).map (·.2)

/-- Serving agents (R486). -/
inductive Agent where
  | hardware | mp | sp | ts | np
  deriving DecidableEq, Repr
/-- The agent of a register (Table 19.5); the mailbox window is served with the mailbox, by the SP. -/
def Reg.agent : Reg → Agent
  | .hello | .logStatus | .logCfg | .logSel | .logAck | .fenceClear | .fencePending | .safeReq | .logData _ => .mp
  | .repairCfg | .mapCfg | .mapEpoch | .mapStatus | .mapSpare | .farCfg | .farCap _ => .mp
  | .coolCfg | .coolTemp | .coolFlow | .coolReq | .capCfg | .capStatus | .pkgPower | .syncCfg | .syncReq => .mp
  | .imageCtl | .secStatus | .tamperCfg | .mboxCtl | .mboxStatus | .mboxData _ => .sp
  | .schedCfg | .schedStatus => .ts
  | .laneCfg | .portEn | .macsecCfg | .netAddr _ | .netGw _ | .addrCfg | .peerBase _ | .peerCount => .np
  | _ => .hardware
/-- The processors of an agent. -/
def Agent.procs : Agent → List Nat
  | .hardware => []
  | .mp => [0]
  | .sp => [1]
  | .ts => [2, 3, 4, 5, 6, 7, 8, 9]
  | .np => [10, 11]
/-- Whether an agent applies a write at once: one of its processors runs, wakes from retention, or the kind is off (log entry 28). -/
def agentTakes (s : State) (a : Agent) : Bool :=
  a == .hardware || a.procs.any (fun p => (s.proc p).st == .running || (s.proc p).st == .retention || (s.proc p).st == .off)
/-- The source of an agent's records: IO-A, or the lowest-numbered processor of the kind that runs (log entry 29). -/
def agentSrc (s : State) (a : Agent) : Source :=
  match a.procs with
  | [] => srcIo 0
  | p :: _ => srcProc ((a.procs.find? (fun q => (s.proc q).st == .running)).getD p)

/-! ## Fields (Tables 6.10-19.4) -/

/-- Write effects of a field that is not read-only (R13). -/
inductive Access where
  | rw | w1c | wo
  deriving DecidableEq, Repr
/-- A field: its bits, its access, whether it is class L, its range. -/
structure Field where
  lo : Nat
  n : Nat
  acc : Access
  lock : Bool
  min : Nat
  max : Nat
  deriving DecidableEq, Repr
/-- A class D field. -/
def dyn (hi lo min max : Nat) : Field := { lo := lo, n := hi + 1 - lo, acc := .rw, lock := false, min := min, max := max }
/-- A class D field whose every value is in range. -/
def dynAll (hi lo : Nat) : Field := dyn hi lo 0 (2 ^ (hi + 1 - lo) - 1)
/-- A class L field. -/
def lck (hi lo min max : Nat) : Field := { lo := lo, n := hi + 1 - lo, acc := .rw, lock := true, min := min, max := max }
/-- A class L field whose every value is in range. -/
def lckAll (hi lo : Nat) : Field := lck hi lo 0 (2 ^ (hi + 1 - lo) - 1)
/-- A W1C field. -/
def w1c (hi lo : Nat) : Field := { dynAll hi lo with acc := .w1c }
/-- A WO field. -/
def woF (hi lo : Nat) : Field := { dynAll hi lo with acc := .wo }

/-- The fields of a register that a write can reach. The fields of WEIR_CFG_Pp are class S and have no range of their own. -/
def Reg.fields : Reg → List Field
  | .hostLo => [lckAll 31 12]
  | .hostHi => [lckAll 31 0]
  | .hello => [woF 0 0]
  | .ringStatus => [w1c 5 5]
  | .wake => [woF 8 0]
  | .pollCfg => [dyn 5 0 1 50]
  | .logCfg => [dyn 31 16 10 10000, dyn 2 0 0 4]
  | .logSel => [dynAll 9 0]
  | .logAck => [woF 31 0]
  | .fenceClear => [woF 31 12]
  | .safeReq => [woF 0 0]
  | .linkCfg => [dyn 15 0 16 4096]
  | .linkSel => [dyn 3 0 0 13]
  | .weirCfg _ => [dynAll 31 25, dynAll 24 18, dynAll 17 11, dynAll 10 4]
  | .weirCommit => [woF 0 0]
  | .weirStatus => [w1c 1 1]
  | .throttle => [dyn 23 16 20 200, dynAll 8 8, dyn 7 0 96 102]
  | .retrainCfg => [dyn 7 0 5 40]
  | .repairCfg => [dynAll 8 8, dyn 2 0 1 4]
  | .scrubCfg => [dynAll 8 8, dyn 7 0 6 24]
  | .mapCfg => [lck 5 0 1 32]
  | .farCfg => [lckAll 2 2, lckAll 1 1, lckAll 0 0]
  | .ctCtl => [dynAll 0 0]
  | .ctSlice => [lckAll 8 0]
  | .ctLoc => [lckAll 27 26, lckAll 25 25, lckAll 24 21, lck 20 8 4096 4223, lckAll 5 0]
  | .ctCheck => [dynAll 31 0]
  | .ctGo => [woF 2 0]
  | .ctStatus => [w1c 2 2, w1c 1 1]
  | .ctData _ => [dynAll 31 0]
  | .nbuCfg => [lckAll 24 24, dyn 23 20 1 8, dyn 12 8 1 24, dyn 3 0 1 8]
  | .nbuClassB => [dyn 31 16 512 10240, dyn 15 8 4 64]
  | .fenceSel => [dynAll 8 0]
  | .coolCfg => [dyn 31 24 40 60, dyn 23 16 4 20, dyn 15 8 20 45, dyn 4 0 0 25]
  | .rotCfg => [dyn 7 0 2 15]
  | .sensorSel => [dynAll 13 12, dynAll 11 0]
  | .towerSel => [dynAll 2 0]
  | .capCfg => [dyn 11 0 900 2400]
  | .idleCfg => [dynAll 31 16, dynAll 15 0]
  | .domainSel => [dynAll 11 10, dynAll 9 0]
  | .laneCfg => [lck 7 6 0 2, lck 5 4 0 2, lck 3 2 0 2, lck 1 0 0 2]
  | .portEn => [dynAll 31 0]
  | .portSel => [dynAll 4 0]
  | .macsecCfg => [lckAll 31 0]
  | .moduleId => [lckAll 31 31, lckAll 14 0]
  | .netAddr _ | .netGw _ => [lckAll 31 0]
  | .addrCfg => [lckAll 0 0]
  | .transport => [lckAll 31 16, dynAll 15 10, dynAll 9 9, dyn 7 0 16 255]
  | .ccCfg => [dyn 23 16 2 100, dyn 15 0 1 4096]
  | .peerBase _ => [lckAll 31 0]
  | .peerCount => [lck 15 0 0 32768]
  | .bufCfg => [dyn 31 16 16 736, dyn 15 0 1 128]
  | .collCfg => [dyn 31 16 1 1000]
  | .bufLimit _ => [dyn 9 0 0 736]
  | .syncCfg => [dyn 9 0 1 1000]
  | .syncReq => [woF 31 0]
  | .wdtCfg => [dyn 31 24 10 200, dyn 23 16 10 200, dyn 15 8 10 200, dyn 7 0 10 200]
  | .procSel => [dyn 3 0 0 11]
  | .holdClear => [woF 3 0]
  | .dumpSel => [dynAll 4 4, dynAll 3 0]
  | .dumpAck => [woF 4 0]
  | .imageCtl => [woF 1 1, dynAll 0 0]
  | .schedCfg => [dynAll 16 16, dynAll 15 8]
  | .tamperStatus => [w1c 5 0]
  | .mboxCtl => [woF 0 0]
  | .mboxStatus => [w1c 1 1]
  | .mboxData _ => [dynAll 31 0]
  | _ => []

/-! ## Reads (R13, R478, R481, R482) -/

/-- A word of fields, each a value and its low bit. -/
def pack (l : List (Nat × Nat)) : W32 := BitVec.ofNat 32 ((l.map (fun (x : Nat × Nat) => x.1 * 2 ^ x.2)).sum)
/-- Table 12.6. -/
def fnStNo : FnSt → Nat
  | .init => 0 | .ready => 1 | .attached => 2 | .refused => 3 | .lost => 4 | .safe => 5
/-- A WEIR_CFG_Pp word (Table 6.9). -/
def weirWord (w : WeirCfg) : W32 := pack [(w.ceiling.toNat, 25), (w.share.toNat, 18), (w.protFloor.toNat, 11), (w.bgShare.toNat, 4)]
/-- A WEIR_CFG_Pp value. -/
def weirOf (v : W32) : WeirCfg where
  ceiling := BitVec.ofNat 7 (bits v 25 7)
  share := BitVec.ofNat 7 (bits v 18 7)
  protFloor := BitVec.ofNat 7 (bits v 11 7)
  bgShare := BitVec.ofNat 7 (bits v 4 7)
/-- WEIR_STATUS.pending (R16). -/
def weirPending (s : State) : Bool :=
  (s.mem.weirShadow.zip s.mem.weir).any (fun x => match x.1 with | some w => w != x.2 | none => false)
/-- Bits of an integer in two's complement. -/
def twos (n : Nat) (x : Int) : Nat := (BitVec.ofInt n x).toNat
/-- A temperature of 0.25 °C in whole degrees, rounded down (log entry 30). -/
def degrees (x : Int) : Nat := twos 8 (x / 4)
/-- The sensor that THM_SENSOR_SEL names. -/
def selSensor (s : State) : Option SensorId :=
  let i := s.thm.senseIndex.toNat
  match s.thm.senseKind.toNat with
  | 0 => if i < 1024 then some (.core (Fin.ofNat 512 (i / 2)) (Fin.ofNat 2 i)) else none
  | 1 => some (.layer (Fin.ofNat 512 (i / 8)) (Fin.ofNat 8 i))
  | 2 => if i < 32 then some (.base (Fin.ofNat 8 (i / 4)) (Fin.ofNat 4 i)) else none
  | _ => if i < 8 then some (.io (Fin.ofNat 2 (i / 4)) (Fin.ofNat 4 i)) else none
/-- THM_SENSOR_VALUE. -/
def sensorWord (s : State) : W32 :=
  match selSensor s with
  | some x => pack [((s.sensor x).st, 30), (twos 12 (s.sensor x).reading, 16), (twos 12 (s.spot (spotOf x)).p, 0)]
  | none => 0
/-- THM_TOWER_STATUS. -/
def towerWord (s : State) (t : TowerId) : W32 :=
  let cs := towerCores t
  let ks := cs.map s.slice
  pack [(degrees (hottestOf s (cs.map HotSpot.core)), 24),
        (degrees (hottestOf s (cs.flatMap (fun c => allLayers.map (HotSpot.layer c)))), 16),
        ((ks.flatMap (fun k => k.layers.map (fun (l : Layer) => l.band))).foldl Nat.max 0, 14),
        ((ks.flatMap (fun k => k.chans.map (fun (x : Chan) => x.step))).foldl Nat.max 0, 12),
        ((cs.map (fun c => (s.core c).q)).foldl Nat.min 16, 7),
        (bn (s.tower t).fastStop, 6), (bn (s.tower t).derated, 5)]
/-- THM_STATUS.state. -/
def thmState (s : State) : Nat :=
  if s.err.safe then 5 else if s.thm.coolSt = 3 then 4 else if s.thm.orderly ∨ s.thm.coolSt = 2 then 3
  else if s.thm.towers.any (fun (t : TowerThm) => t.fastStop) then 2 else if everyCore.any (preThrottled s) then 1 else 0
/-- The code of a domain's state (Table 15.7). -/
def domNo : DomSt → Nat
  | .on => 0 | .retention => 1 | .off => 2 | .failed => 3
/-- PWR_DOMAIN_STATUS.state; a failed domain reads 3 (R419). -/
def domainState (s : State) : Nat :=
  let i := s.pwr.domIndex.toNat
  let k := s.pwr.domKind.toNat
  if s.pwr.failed.contains (1024 * k + i) then 3
  else match k with
    | 0 => if 512 ≤ i then 0 else match (s.core (Fin.ofNat 512 i)).mode with | .retention => 1 | .off => 2 | _ => 0
    | 1 => domNo (s.pwr.nearBank.getD i .on)
    | 2 => if i < 512 ∧ (s.slice (Fin.ofNat 512 i)).selfRefresh then 1 else 0
    | _ => if 12 ≤ i then 0 else match (s.proc i).st with | .retention => 1 | .off => 2 | _ => 0
/-- FW_PROC_STATUS.state. -/
def procNo : ProcSt → Nat
  | .running => 0 | .restarting => 1 | .heldDown => 2 | .retention => 3 | .off => 4
/-- Whether a processor number of a selector exists. -/
def procAt (p : Nat) : Bool := decide (p < 12)
/-- A 32-bit word of 64-bit words. -/
def half (ws : Nat → W64) (w : Nat) : W32 := BitVec.ofNat 32 (bits (ws (w / 2)) (32 * (w % 2)) 32)
/-- The dump word that FW_DUMP_DATA shows; a slot never written holds contents the spec does not give. -/
def dumpShown (s : State) (w : Nat) : W32 :=
  let p := s.fw.dumpProc.toNat
  let d := (s.proc p).dumps.getD (bn s.fw.dumpSlot) Dump.reset
  if procAt p = false then 0 else if d.island.isNone then Config.dumpWord p w 0 else half (dumpWordAt p d) w
/-- A word of the mailbox window: the response over the request. -/
def mboxWord (s : State) (w : Nat) : W32 :=
  let x := s.mbox 0
  let own := (smGet x.data w).getD 0
  BitVec.ofNat 32 (leNat ((List.range 4).map (fun i => x.response.getD (4 * w + i) (BitVec.ofNat 8 (bits own (8 * i) 8)))))
/-- ERR_LINK_STATUS. -/
def linkWord (s : State) (l : LinkId) : W32 :=
  let k := s.link l
  pack [(Nat.min 255 (Nat.max k.fwd.lastReplays k.rev.lastReplays), 16), (k.oxA, 10), (k.oxB, 4), (k.width, 2), (k.st, 0)]
/-- What a read of a register returns: the value in effect, 0 in reserved bits and WO fields. -/
def regVal (s : State) (f : FnId) : Reg → W32
  | .idMagic => 0x4B454701
  | .idPart => Sys2Proof.Machine.idPart
  | .idOrder => pack [(Config.orderCode.toNat, 0)]
  | .idStepping => Config.stepping
  | .idSerialLo => BitVec.ofNat 32 (bits Config.serial 0 32)
  | .idSerialHi => BitVec.ofNat 32 (bits Config.serial 32 32)
  | .idBundle => bundleVer s
  | .idStart => Sys2Proof.Machine.idStart s
  | .idFunc => pack [(f.val, 0)]
  | .hostLo => (s.fn f).hostLo
  | .hostHi => (s.fn f).hostHi
  | .hello | .wake | .logAck | .fenceClear | .safeReq | .weirCommit | .ctGo | .syncReq | .holdClear | .dumpAck | .mboxCtl => 0
  | .ringStatus => pack [((s.fn f).helloCount.toNat, 16), (bn (s.fn f).stretched, 5), (bn (s.fn f).busy, 4), (fnStNo (s.fn f).st, 0)]
  | .ringVersion => pack [(2, 24), (3, 16), ((s.fn f).drvMajor.toNat, 8), ((s.fn f).drvMinor.toNat, 0)]
  | .pollCfg => pack [((s.fn f).pollMax.toNat, 0)]
  | .unmapped => s.err.unmapped
  | .logStatus => pack [(s.err.overflow.toNat, 16), (s.err.entries.length, 0)]
  | .logCfg => pack [(s.err.timerUs.toNat, 16), (s.err.irqSeverity.toNat, 0)]
  | .logSel => pack [(s.err.sel.toNat, 0)]
  | .fencePending => pack [(s.err.marks.length, 0)]
  | .safeStatus => pack [(bn s.err.safe, 31), (s.err.cause, 0)]
  | .linkCfg => pack [(s.err.linkThresh.toNat, 0)]
  | .linkSel => pack [(s.err.linkSel.toNat, 0)]
  | .linkStatus => linkWord s (Fin.ofNat 14 s.err.linkSel.toNat)
  | .weirCfg p => weirWord (s.mem.weir.getD p (weirOf 0))
  | .weirStatus => pack [(bn s.mem.cfgError, 1), (bn (weirPending s), 0)]
  | .throttle => pack [(s.mem.holdUs.toNat, 16), (bn s.mem.predict, 8), (s.mem.t1.toNat, 0)]
  | .retrainCfg => pack [(s.mem.drift.toNat, 0)]
  | .repairCfg => pack [(bn s.mem.repairAuto, 8), (s.mem.pace.toNat, 0)]
  | .scrubCfg => pack [(bn s.mem.scrubEn, 8), (s.mem.periodH.toNat, 0)]
  | .scrubStatus => s.mem.scrubPasses
  | .ceCount => s.mem.ceCount
  | .mapCfg => pack [(s.map.spread16m.toNat, 0)]
  | .mapEpoch => s.map.epoch
  | .mapStatus => pack [(s.map.substs, 16), (bn s.mapBusy, 0)]
  | .mapSpare => pack [(s.spareSets, 0)]
  | .farCfg => pack [(bn s.mem.farPair, 2), (bn s.mem.farEnB, 1), (bn s.mem.farEnA, 0)]
  | .farStatus p => pack [((s.farPort p).st, 12), ((s.farPort p).width, 8), ((s.farPort p).rate, 4)]
  | .farCap p => pack [((s.farPort p).cap, 0)]
  | .ctCtl => pack [(bn s.mem.ctEnable, 0)]
  | .ctSlice => pack [(s.mem.ctCore.toNat, 0)]
  | .ctLoc => s.mem.ctLoc
  | .ctCheck => s.mem.ctCheck
  | .ctSynd => s.mem.ctSynd
  | .ctResult => pack [(s.mem.ctBit.toNat, 8), (s.mem.ctClass.toNat, 0)]
  | .ctStatus => pack [(bn s.mem.ctLost, 2), (bn s.mem.ctOverwritten, 1), (bn s.mem.ctBusy, 0)]
  | .ctData k => s.mem.ctData.getD k 0
  | .nbuCfg => pack [(bn s.mem.fixedEn, 24), (s.mem.refreshDefer.toNat, 20), (s.mem.classaSlice.toNat, 8), (s.mem.classaChan.toNat, 0)]
  | .nbuClassB => pack [(s.mem.layerBudget.toNat, 16), (s.mem.actsPerRef.toNat, 8)]
  | .fenceSel => pack [(s.mem.fenceSel.toNat, 0)]
  | .fenceMap hi => pack ((List.range 32).map (fun i =>
      (bn (s.unit (Fin.ofNat 512 s.mem.fenceSel.toNat) (Fin.ofNat 64 (32 * bn hi + i))).fencedU, i)))
  | .nbuActive =>
    let us := s.slices.flatMap (fun k => (k.2.units.map (fun u => u.2)).filter (fun (u : BankUnit) => u.active))
    pack [((us.filter (fun (u : BankUnit) => u.classB && u.st == .running)).length, 16), ((us.filter (fun (u : BankUnit) => !u.classB)).length, 0)]
  | .coolCfg => pack [(s.thm.outletMax.toNat, 24), (s.thm.riseMax.toNat, 16), (s.thm.flowLow.toNat, 8), (s.thm.glycol.toNat, 0)]
  | .rotCfg => pack [(s.thm.margin.toNat, 0)]
  | .coolTemp => pack [(twos 16 s.thm.outlet, 16), (twos 16 s.thm.inlet, 0)]
  | .coolFlow => pack [(s.thm.coolSt, 28), (Nat.min 4095 (s.thm.limitMw / 1000), 16), (Nat.min 65535 s.thm.flow, 0)]
  | .coolReq => pack [(s.thm.request, 0)]
  | .sensorSel => pack [(s.thm.senseKind.toNat, 12), (s.thm.senseIndex.toNat, 0)]
  | .sensorValue => sensorWord s
  | .towerSel => pack [(s.thm.towerSel.toNat, 0)]
  | .towerStatus => towerWord s (Fin.ofNat 8 s.thm.towerSel.toNat)
  | .thmStatus => pack [(s.thm.fastStops.toNat, 24), ((s.thm.sensors.filter (fun x => x.2.st != 0)).length, 11), (thmState s, 0)]
  | .capCfg => pack [(s.pwr.capW.toNat, 0)]
  | .capStatus => pack [(s.pwr.cause, 29), (s.pwr.qMax, 24), (s.pwr.effective, 12)]
  | .pkgPower => pack [(Nat.min 4095 s.pwr.meanW, 0)]
  | .idleCfg => pack [(s.pwr.offMs.toNat, 16), (s.pwr.retUs.toNat, 0)]
  | .domainSel => pack [(s.pwr.domKind.toNat, 10), (s.pwr.domIndex.toNat, 0)]
  | .domainStatus => pack [(domainState s, 0)]
  | .laneCfg => pack [(s.net.regs.laneB.toNat, 6), (s.net.regs.modeB.toNat, 4), (s.net.regs.laneA.toNat, 2), (s.net.regs.modeA.toNat, 0)]
  | .portEn => s.net.regs.portEn
  | .portSel => pack [(s.net.regs.portSel.toNat, 0)]
  | .portStatus =>
    let p : PortId := Fin.ofNat 32 s.net.regs.portSel.toNat
    let x := s.port p
    if (s.portDie p).isNone then 0 else pack [(if x.st = 2 then x.speed else 0, 8), (bn x.slow, 6), (bn x.secure, 5), (bn (x.st == 2), 4)]
  | .macsecCfg => s.net.regs.macsec
  | .moduleId => pack [(bn s.net.regs.valid, 31), (s.net.regs.module.toNat, 0)]
  | .netAddr k => s.net.regs.addr.getD k 0
  | .netGw k => s.net.regs.gw.getD k 0
  | .addrCfg => pack [(bn s.net.regs.ipv6, 0)]
  | .transport => pack [(s.net.regs.udpPort.toNat, 16), (s.net.regs.dscp.toNat, 10), (bn s.net.regs.ecnEn, 9), (s.net.regs.rtoMin.toNat, 0)]
  | .ccCfg => pack [(s.net.regs.targetUs.toNat, 16), (s.net.regs.maxWindow.toNat, 0)]
  | .peerBase hi => if hi then s.net.regs.peerHi else s.net.regs.peerLo
  | .peerCount => pack [(s.net.regs.peerCount.toNat, 0)]
  | .bufCfg => pack [(s.net.regs.mark.toNat, 16), (s.net.regs.early.toNat, 0)]
  | .collCfg => pack [(s.net.regs.paceMaxMs.toNat, 16)]
  | .bufLimit p => pack [((s.net.regs.bufLimit.getD p 0).toNat, 0)]
  | .syncCfg => pack [(s.sync.periodMs.toNat, 0)]
  | .wdtCfg => pack [(s.fw.spMs.toNat, 24), (s.fw.npMs.toNat, 16), (s.fw.tsMs.toNat, 8), (s.fw.mpMs.toNat, 0)]
  | .procSel => pack [(s.fw.procSel.toNat, 0)]
  | .procStatus =>
    let p := s.fw.procSel.toNat
    if procAt p = false then 0
    else pack [(procNo (s.proc p).st, 28), (Nat.min 3 (recentRestarts s p).length, 24), ((s.proc p).total.toNat, 8)]
  | .dumpSel => pack [(bn s.fw.dumpSlot, 4), (s.fw.dumpProc.toNat, 0)]
  | .dumpStatus =>
    let p := s.fw.dumpProc.toNat
    let valid (i : Nat) : Nat := bn ((s.proc p).dumps.getD i Dump.reset).valid
    if procAt p = false then 0 else pack [((s.proc p).dumpLost.toNat, 16), (valid 1, 1), (valid 0, 0)]
  | .imageStatus => pack [(bn s.fw.trial, 7), (bn s.fw.running, 6), (bn s.fw.committed, 5), (s.fw.verB, 2), (s.fw.verA, 0)]
  | .imageVer b => if b then s.fw.bundleB else s.fw.bundleA
  | .imageCtl => pack [(bn s.fw.next, 0)]
  | .schedCfg => pack [(bn s.fw.rotateEn, 16), (s.fw.preemptDelta.toNat, 8)]
  | .schedStatus => s.fw.rotations
  | .secStatus => Sys2Proof.Machine.secStatus s
  | .tamperCfg => pack [(lockedMask.toNat, 16), (s.sec.enabled.toNat, 0)]
  | .tamperStatus => pack [(s.sec.tripped.toNat, 0)]
  | .mboxStatus => pack [((s.mbox 0).status.toNat, 16), (bn (s.mbox 0).done, 1), (bn (s.mbox 0).busy, 0)]
  | .logData w => half (fun i => s.err.latch.getD i 0) w
  | .dumpData w => dumpShown s w
  | .mboxData w => mboxWord s w
/-- What a 32-bit read of a function's BAR0 returns; 0 at an unassigned offset (R14). -/
def readReg (s : State) (f : FnId) (off : Nat) : W32 := match regAt f off with | some r => regVal s f r | none => 0

/-! ## Storing a register's writable fields -/

/-- A bit field of a value. -/
def bv (w : Nat) (v : W32) (lo : Nat) : BitVec w := BitVec.ofNat w (bits v lo w)
/-- Memory registers changed. -/
def State.setMem (s : State) (f : MemRegs → MemRegs) : State := { s with mem := f s.mem }
/-- Network registers changed. -/
def State.setNet (s : State) (f : NetRegs → NetRegs) : State := { s with net := { s.net with regs := f s.net.regs } }
/-- A CXL port's domain follows its enable, and its link trains or is off (Tables 8.8, 15.1). -/
def farEnable (s : State) (p : FarPort) (was is : Bool) : State :=
  if was = is then s
  else
    let s := s.modFar p (fun (x : Far) => if is then { x with st := 1 } else Far.reset)
    let old := s.pwr.ports.getD (1 + p.val) .on
    let new : DomSt := if is then (if old = .retention then .on else old) else if old = .on then .retention else old
    { s with pwr := { s.pwr with ports := s.pwr.ports.set (1 + p.val) new } }
/-- A write of MEM_FAR_CFG. -/
def setFarCfg (s : State) (v : W32) : State :=
  let a := s.mem.farEnA
  let b := s.mem.farEnB
  let s := s.setMem (fun m => { m with farPair := bit v 2, farEnB := bit v 1, farEnA := bit v 0 })
  farEnable (farEnable s 0 a (bit v 0)) 1 b (bit v 1)
/-- A write of NET_PORT_EN: ports disabled go down, a port's enable starts its training anew (R354), and the ports' domain of an IO die rests while all of them are disabled. -/
def setPortEn (s : State) (v : W32) : State :=
  let fresh := allPorts.filter (fun p => v.getLsbD p.val && !(s.net.regs.portEn.getLsbD p.val))
  let s := (allPorts.filter (fun p => !(v.getLsbD p.val))).foldl portDown (s.setNet (fun r => { r with portEn := v }))
  let s := fresh.foldl (fun (s : State) (p : PortId) => s.modPort p (fun x => { x with fails400 := 0 })) s
  let rest (d : Nat) (was : DomSt) : DomSt :=
    let off := (allPorts.filter (fun p => s.portDie p == some d)).all (fun p => !(v.getLsbD p.val))
    if off then (if was = .on then .retention else was) else if was = .retention then .on else was
  { s with pwr := { s.pwr with ports := s.pwr.ports.zipIdx.map (fun (x : DomSt × Nat) => if 3 ≤ x.2 then rest (x.2 - 3) x.1 else x.1) } }
/-- A write of WEIR_CFG_Pp: staged while the weirs run, in effect at once while they are stopped (R15, R16). -/
def setWeir (s : State) (run : Bool) (p : Nat) (v : W32) : State :=
  if run then s.setMem (fun m => { m with weirShadow := m.weirShadow.set p (some (weirOf v)) })
  else s.setMem (fun m => { m with weir := m.weir.set p (weirOf v) })
/-- Stores the RW and W1C fields of a register from a word. -/
def setReg (s : State) (f : FnId) (run : Bool) (r : Reg) (v : W32) : State :=
  match r with
  | .hostLo => s.modFn f (fun k => { k with hostLo := v })
  | .hostHi => s.modFn f (fun k => { k with hostHi := v })
  | .ringStatus => s.modFn f (fun k => { k with stretched := bit v 5 })
  | .pollCfg => s.modFn f (fun k => { k with pollMax := bv 6 v 0 })
  | .logCfg => { s with err := { s.err with timerUs := bv 16 v 16, irqSeverity := bv 3 v 0 } }
  | .logSel => logSel s v
  | .linkCfg => { s with err := { s.err with linkThresh := bv 16 v 0 } }
  | .linkSel => { s with err := { s.err with linkSel := bv 4 v 0 } }
  | .weirCfg p => setWeir s run p v
  | .weirStatus => s.setMem (fun m => { m with cfgError := bit v 1 })
  | .throttle => s.setMem (fun m => { m with holdUs := bv 8 v 16, predict := bit v 8, t1 := bv 8 v 0 })
  | .retrainCfg => s.setMem (fun m => { m with drift := bv 8 v 0 })
  | .repairCfg => s.setMem (fun m => { m with repairAuto := bit v 8, pace := bv 3 v 0 })
  | .scrubCfg => s.setMem (fun m => { m with scrubEn := bit v 8, periodH := bv 8 v 0 })
  | .mapCfg => spreadChange s (bv 6 v 0)
  | .farCfg => setFarCfg s v
  | .ctCtl => s.setMem (fun m => { m with ctEnable := bit v 0 })
  | .ctSlice => s.setMem (fun m => { m with ctCore := bv 9 v 0 })
  | .ctLoc => s.setMem (fun m => { m with ctLoc := v })
  | .ctCheck => s.setMem (fun m => { m with ctCheck := v })
  | .ctStatus => s.setMem (fun m => { m with ctLost := bit v 2, ctOverwritten := bit v 1 })
  | .ctData k => s.setMem (fun m => { m with ctData := m.ctData.set k v })
  | .nbuCfg => s.setMem (fun m => { m with
      fixedEn := bit v 24, refreshDefer := bv 4 v 20, classaSlice := bv 5 v 8, classaChan := bv 4 v 0 })
  | .nbuClassB => s.setMem (fun m => { m with layerBudget := bv 16 v 16, actsPerRef := bv 8 v 8 })
  | .fenceSel => s.setMem (fun m => { m with fenceSel := bv 9 v 0 })
  | .coolCfg => { s with thm := { s.thm with outletMax := bv 8 v 24, riseMax := bv 8 v 16, flowLow := bv 8 v 8, glycol := bv 5 v 0 } }
  | .rotCfg => { s with thm := { s.thm with margin := bv 8 v 0 } }
  | .sensorSel => { s with thm := { s.thm with senseKind := bv 2 v 12, senseIndex := bv 12 v 0 } }
  | .towerSel => { s with thm := { s.thm with towerSel := bv 3 v 0 } }
  | .capCfg => { s with pwr := { s.pwr with capW := bv 12 v 0 } }
  | .idleCfg => { s with pwr := { s.pwr with offMs := bv 16 v 16, retUs := bv 16 v 0 } }
  | .domainSel => { s with pwr := { s.pwr with domKind := bv 2 v 10, domIndex := bv 10 v 0 } }
  | .laneCfg => s.setNet (fun x => { x with laneB := bv 2 v 6, modeB := bv 2 v 4, laneA := bv 2 v 2, modeA := bv 2 v 0 })
  | .portEn => setPortEn s v
  | .portSel => s.setNet (fun x => { x with portSel := bv 5 v 0 })
  | .macsecCfg => s.setNet (fun x => { x with macsec := v })
  | .moduleId => s.setNet (fun x => { x with valid := bit v 31, module := bv 15 v 0 })
  | .netAddr k => s.setNet (fun x => { x with addr := x.addr.set k v })
  | .netGw k => s.setNet (fun x => { x with gw := x.gw.set k v })
  | .addrCfg => s.setNet (fun x => { x with ipv6 := bit v 0 })
  | .transport => s.setNet (fun x => { x with udpPort := bv 16 v 16, dscp := bv 6 v 10, ecnEn := bit v 9, rtoMin := bv 8 v 0 })
  | .ccCfg => s.setNet (fun x => { x with targetUs := bv 8 v 16, maxWindow := bv 16 v 0 })
  | .peerBase hi => s.setNet (fun x => if hi then { x with peerHi := v } else { x with peerLo := v })
  | .peerCount => s.setNet (fun x => { x with peerCount := bv 16 v 0 })
  | .bufCfg => s.setNet (fun x => { x with mark := bv 16 v 16, early := bv 16 v 0 })
  | .collCfg => s.setNet (fun x => { x with paceMaxMs := bv 16 v 16 })
  | .bufLimit p => s.setNet (fun x => { x with bufLimit := x.bufLimit.set p (bv 10 v 0) })
  | .syncCfg => { s with sync := { s.sync with periodMs := bv 10 v 0 } }
  | .wdtCfg => { s with fw := { s.fw with spMs := bv 8 v 24, npMs := bv 8 v 16, tsMs := bv 8 v 8, mpMs := bv 8 v 0 } }
  | .procSel => { s with fw := { s.fw with procSel := bv 4 v 0 } }
  | .dumpSel => { s with fw := { s.fw with dumpSlot := bit v 4, dumpProc := bv 4 v 0 } }
  | .imageCtl => { s with fw := { s.fw with next := bit v 0 } }
  | .schedCfg => { s with fw := { s.fw with rotateEn := bit v 16, preemptDelta := bv 8 v 8 } }
  | .tamperStatus => { s with sec := { s.sec with tripped := bv 6 v 0 } }
  | .mboxStatus => s.modMbox 0 (fun x => { x with done := bit v 1 })
  | .mboxData w =>
    let shown (x : Mbox) : SMap W32 := (List.range ((x.response.length + 3) / 4)).foldl (fun acc i => smSet acc i (mboxWord s i)) x.data
    s.modMbox 0 (fun x => { x with data := smSet (shown x) w v, response := [] })
  | _ => s
/-- The action of a register's WO fields. RING_HELLO.go and SEC_MBOX_CTL.go have commands of their own, which carry what Kegor reads. -/
def actReg (s : State) (f : FnId) (off : Nat) (r : Reg) (v : W32) : State :=
  match r with
  | .wake => ringWake s f v
  | .logAck => logAck s v
  | .fenceClear => fenceClear s (agentSrc s .mp) off v
  | .safeReq => if bit v 0 then safeOrderly s 13 else s
  | .weirCommit => if bit v 0 ∧ s.err.safe = false then weirCommit s (srcIo 0) else s
  | .ctGo =>
    if s.err.safe then s
    else if s.mem.ctEnable = false ∨ s.mem.ctBusy then cfgReject s (srcIo 0) stCfgLocked off v
    else testGo s (bits v 0 3)
  | .syncReq => syncRequest s v
  | .holdClear => holdClear s (srcIo 0) off v
  | .dumpAck => dumpAck s v
  | .imageCtl =>
    if bit v 1 = false then s
    else
      -- a risen rollback counter is a change of the lifecycle (Table 18.1, M7)
      let t := imageCommit s
      if t.sec.rollback = s.sec.rollback then t else extendLife t
  | _ => s

/-! ## Writes (R13-R16, R190, R477, R483, R486) -/

/-- Whether the block of a register runs, so that its class L and class S fields are held (Table 19.6). -/
def blockRuns (s : State) (f : FnId) (r : Reg) : Bool :=
  !s.err.safe && (match r with
    | .hostLo | .hostHi => (s.fn f).st == .attached
    | .weirCfg _ => true
    | .mapCfg | .nbuCfg => !s.ctxs.isEmpty
    | .farCfg => s.regions.any (fun x => x.view == 2)
    | .ctSlice | .ctLoc => s.mem.ctEnable
    | .laneCfg | .macsecCfg | .moduleId | .netAddr _ | .netGw _ | .addrCfg | .transport | .peerBase _ | .peerCount => s.net.regs.portEn != 0
    | _ => false)
/-- A word with a field set. -/
def putField (w : W32) (f : Field) (x : Nat) : W32 := BitVec.ofNat 32 (w.toNat - bits w f.lo f.n * 2 ^ f.lo + x * 2 ^ f.lo)
/-- What a write makes of a register: the word of its RW and W1C fields, whether a field was locked, whether one was out of range. -/
structure Merge where
  val : W32
  locked : Bool
  range : Bool
  deriving DecidableEq, Repr
/-- One field of a written word. -/
def mergeField (run : Bool) (v : W32) (m : Merge) (f : Field) : Merge :=
  let x := bits v f.lo f.n
  let old := bits m.val f.lo f.n
  match f.acc with
  | .wo => m
  | .w1c => { m with val := putField m.val f (old &&& (2 ^ f.n - 1 - x)) }
  | .rw =>
    if run && f.lock then { m with locked := m.locked || x != old }
    else if x < f.min ∨ f.max < x then { m with range := true }
    else { m with val := putField m.val f x }
/-- The indices that a kind of THM_SENSOR_SEL or PWR_DOMAIN_SEL has (log entry 31). -/
def indexLimit (r : Reg) (kind : Nat) : Nat :=
  match r with
  | .sensorSel => [1024, 4096, 32, 8].getD kind 0
  | .domainSel => [512, 8, 512, 12].getD kind 0
  | _ => 0
/-- The index of a selector beyond its kind's range stays as it was. -/
def limitIndex (r : Reg) (old : W32) (m : Merge) : Merge :=
  let keep (n : Nat) (f : Field) : Merge :=
    if bits m.val 0 n < indexLimit r (bits m.val n 2) then m else { m with val := putField m.val f (bits old 0 n), range := true }
  match r with
  | .sensorSel => keep 12 (dynAll 11 0)
  | .domainSel => keep 10 (dynAll 9 0)
  | _ => m
/-- What a write makes of a register in a state. -/
def mergeReg (s : State) (f : FnId) (run : Bool) (r : Reg) (v : W32) : Merge :=
  let old := match r with
    | .weirCfg p => weirWord (((s.mem.weirShadow.getD p none)).getD (s.mem.weir.getD p (weirOf 0)))
    | _ => regVal s f r
  limitIndex r old (r.fields.foldl (mergeField run v) { val := old, locked := false, range := false })
/-- A write that its agent applies, judged with its block running or not when it arrived (R15, R190, Table 19.7). -/
def regWrite (s : State) (f : FnId) (run : Bool) (r : Reg) (off : Nat) (v : W32) : State :=
  let src := agentSrc s r.agent
  let m := mergeReg s f run r v
  -- DXK-8T512-WS keeps sp_ms at 20 (R403)
  let fixed := r = .wdtCfg ∧ isWs ∧ bits v 24 8 ≠ 20
  let val := if fixed then putField m.val (dynAll 31 24) 20 else m.val
  let range := if fixed then !(([dyn 23 16 10 200, dyn 15 8 10 200, dyn 7 0 10 200] : List Field).all (fun f =>
    decide (f.min ≤ bits v f.lo f.n) && decide (bits v f.lo f.n ≤ f.max))) else m.range
  -- the code test window opens on a free reserve row only (R207)
  let shut := r = .ctCtl ∧ bit val 0 ∧ testRowFree s = false
  let val := if shut then 0 else val
  let s := if m.locked then cfgReject s src stCfgLocked off v else s
  let s := if range ∨ shut then cfgReject s src stCfgRange off v else s
  let s := if fixed then cfgReject s src stSecLocked off v else s
  actReg (if r.fields.any (fun x => x.acc != .wo) then setReg s f run r val else s) f off r v
/-- A write waits in its agent's queue, with whether its block ran when it arrived. -/
def queueWrite (s : State) (a : Agent) (run : Bool) (off : Nat) (v : W32) : State :=
  s.modProc (a.procs.headD 0) (fun x => { x with writes := x.writes ++ [(bn run, off, v)] })
/-- A message to an agent's processors wakes those in retention (R406). -/
def wakeAgent (s : State) (a : Agent) : State :=
  a.procs.foldl (fun (s : State) p => if (s.proc p).st = .retention then s.modProc p (fun x => { x with st := .running }) else s) s
/-- Whether a function's BAR0 can be reached: start-up step 4 is done (Table 19.7), and IO-A gives posted-write credits (R486). -/
def barOpen (s : State) (f : FnId) : Bool :=
  s.start.phase == .service && (s.fn f).enabled && s.procs.all (fun (p : Proc) => decide (p.writes.length < 64))
/-- An access to an unassigned offset is counted (R14). -/
def countUnmapped (s : State) : State := { s with err := { s.err with unmapped := satAdd s.err.unmapped 1 } }
/-- A 32-bit write of a function to its BAR0. -/
def hostWrite (s : State) (f : FnId) (off : Nat) (enables : BitVec 4) (v : W32) : State :=
  if barOpen s f = false then s
  else match regAt f off with
    | none => countUnmapped s
    | some r =>
      if off / 4096 = 0 then s
      else if enables ≠ 0xF ∨ off % 4 ≠ 0 then cfgReject s (agentSrc s r.agent) stCfgRange off v
      else
        let run := blockRuns s f r
        match r with
        | .logData _ | .dumpData _ => s
        | .mboxData _ | .mboxCtl =>
          if (s.mbox 0).busy then cfgReject s srcSp stCfgLocked off v else setReg s f run r v
        | _ => if agentTakes s r.agent then regWrite (wakeAgent s r.agent) f run r off v else queueWrite s r.agent run off v
/-- The queued writes of an agent whose processor serves again, in order of arrival. -/
def applyQueued (s : State) (a : Agent) : State :=
  let l := (s.proc (a.procs.headD 0)).writes
  let s := s.modProc (a.procs.headD 0) (fun x => { x with writes := [] })
  l.foldl (fun (s : State) (w : Nat × Nat × W32) => match regAt 0 w.2.1 with | some r => regWrite s 0 (w.1 == 1) r w.2.1 w.2.2 | none => s) s

/-! ## Commands that write a register -/

/-- The agent of a processor. -/
def agentOf (p : ProcId) : Agent := if p.val = 0 then .mp else if p.val = 1 then .sp else if p.val < 10 then .ts else .np
/-- The measurement register of a processor's image (Table 18.1). -/
def imageReg (p : ProcId) : Nat := if p.val = 0 then 2 else if p.val = 1 then 1 else if p.val < 10 then 3 else 4
/-- PROCESSOR_RESUME: image check, journal replay, service; a reload from flash is measured again, and a journal of the MP or SP
that is not consistent ends in SAFE (R395, R396, R398, R457). -/
def execProcessorResume (p : ProcId) (imageOk journalOk : Bool) (s : State) : Out :=
  .next (
    if (s.proc p.val).st ≠ .restarting ∨ (p.val ≠ 1 ∧ (s.proc 1).st ≠ .running) then s
    else
      let s := if imageOk then s else extendReg s (imageReg p) (Config.imageHash s.fw.running (imageReg p))
      if journalOk then applyQueued (resumeProc s p.val imageOk true) (agentOf p)
      else if p.val < 2 then safeOrderly (applyQueued (resumeProc s p.val imageOk true) (agentOf p)) 11
      else s)
/-- WEIR_COMMIT_GO: a write of 1 to WEIR_COMMIT. -/
def execWeirCommitGo (fn : FnId) (s : State) : Out := .next (hostWrite s fn 0x20040 0xF 1)
/-- CODE_TEST_ENABLE: a write of MEM_CODE_TEST_CTL. -/
def execCodeTestEnable (fn : FnId) (value : W32) (s : State) : Out := .next (hostWrite s fn 0x30100 0xF value)
/-- A write of an operation to MEM_CODE_TEST_GO. -/
def writeTestGo (s : State) (fn : FnId) (op : W32) : State := hostWrite s fn 0x30110 0xF op
/-- CODE_TEST_WRITE_RAW: operation 1. -/
def execCodeTestWriteRaw (fn : FnId) (s : State) : Out := .next (writeTestGo s fn 1)
/-- CODE_TEST_WRITE_ENCODED: operation 2. -/
def execCodeTestWriteEncoded (fn : FnId) (s : State) : Out := .next (writeTestGo s fn 2)
/-- CODE_TEST_READ_RAW: operation 3. -/
def execCodeTestReadRaw (fn : FnId) (s : State) : Out := .next (writeTestGo s fn 3)
/-- CODE_TEST_READ_FULL: operation 4. -/
def execCodeTestReadFull (fn : FnId) (s : State) : Out := .next (writeTestGo s fn 4)
/-- CODE_TEST_READ_ACTIVATION: operation 5. -/
def execCodeTestReadActivation (fn : FnId) (s : State) : Out := .next (writeTestGo s fn 5)
/-- SPREAD_MAP_CHANGE: a write of MEM_MAP_CFG. -/
def execSpreadMapChange (fn : FnId) (value : W32) (s : State) : Out := .next (hostWrite s fn 0x30020 0xF value)
/-- FW_SYNC_REQ: a write of the host tag. -/
def execFwSyncReq (fn : FnId) (tag : W32) (s : State) : Out := .next (hostWrite s fn 0x80004 0xF tag)
/-- RING_WAKE: a write of the function's own register. -/
def execRingWake (fn : FnId) (value : W32) (s : State) : Out := .next (hostWrite s fn 0x1014 0xF value)
/-- FW_HOLD_CLEAR. -/
def execFwHoldClear (fn : FnId) (value : W32) (s : State) : Out := .next (hostWrite s fn 0x80014 0xF value)
/-- FW_DUMP_ACK. -/
def execFwDumpAck (fn : FnId) (value : W32) (s : State) : Out := .next (hostWrite s fn 0x80020 0xF value)
/-- FW_IMAGE_COMMIT: a write of FW_IMAGE_CTL. -/
def execFwImageCommit (fn : FnId) (value : W32) (s : State) : Out := .next (hostWrite s fn 0x80030 0xF value)
/-- ERR_LOG_ACK. -/
def execErrLogAck (fn : FnId) (value : W32) (s : State) : Out := .next (hostWrite s fn 0x10010 0xF value)
/-- ERR_LOG_SEL. -/
def execErrLogSel (fn : FnId) (value : W32) (s : State) : Out := .next (hostWrite s fn 0x1000C 0xF value)
/-- ERR_FENCE_CLEAR. -/
def execErrFenceClear (fn : FnId) (value : W32) (s : State) : Out := .next (hostWrite s fn 0x10014 0xF value)
/-- ERR_SAFE_REQ. -/
def execErrSafeReq (fn : FnId) (value : W32) (s : State) : Out := .next (hostWrite s fn 0x10020 0xF value)
/-- UNMAPPED_ACCESS: a read or write of an unassigned offset; an access to an assigned one is not this command. -/
def execUnmappedAccess (fn : FnId) (offset : Nat) (isWrite : Bool) (s : State) : Out :=
  .next (
    if (s.start.phase == .service && (s.fn fn).enabled) = false ∨ (isWrite ∧ barOpen s fn = false) ∨ (regAt fn offset).isSome then s
    else countUnmapped s)
/-- REGISTER_WRITE. -/
def execRegisterWrite (fn : FnId) (offset : Nat) (byteEnables : BitVec 4) (value : W32) (s : State) : Out :=
  .next (hostWrite s fn offset byteEnables value)

end Sys2Proof.Machine
end

