-- ==== Sys2Proof/Machine/Scalar.lean ====
section
/-! DEFINITION. Scalar and control instructions (Tables 4.3, 4.4; R95, R104-R107, R129). -/

namespace Sys2Proof.Machine

/-- The shift amount: bits [5:0] of the operand (R105). -/
def shamt (b : W64) : Nat := b.toNat % 64

/-- The immediate of format RI, sign-extended (Table 4.4). -/
def immOf (imm : BitVec 32) : W64 := imm.signExtend 64

/-- 1 or 0 (Table 4.4). -/
def flagWord (p : Bool) : W64 := if p then 1 else 0

/-- Operations of format RR and RI (Table 4.4). -/
inductive AluOp where
  | add | sub | mul | and | or | xor | shl | shr | sar | min | max | slt | sltu
  deriving DecidableEq, Repr

/-- The result of an operation (R105). -/
def aluValue (op : AluOp) (a b : W64) : W64 :=
  match op with
  | .add => a + b
  | .sub => a - b
  | .mul => a * b
  | .and => a &&& b
  | .or => a ||| b
  | .xor => a ^^^ b
  | .shl => a <<< shamt b
  | .shr => a >>> shamt b
  | .sar => a.sshiftRight (shamt b)
  | .min => if a.slt b then a else b
  | .max => if a.slt b then b else a
  | .slt => flagWord (a.slt b)
  | .sltu => flagWord (a.ult b)

/-- A one-cycle instruction that writes register d with a value of the core before it. -/
def setsReg (c : CoreId) (d : BitVec 5) (v : Core → W64) (s : State) : Out :=
  dispatch c s (fun k s => s.setCore c (k.setReg d (v k)).advance)

/-- Format RR. -/
def aluRR (op : AluOp) (c : CoreId) (d a b : BitVec 5) (s : State) : Out :=
  setsReg c d (fun k => aluValue op (k.reg a) (k.reg b)) s

/-- Format RI. -/
def aluRI (op : AluOp) (c : CoreId) (d a : BitVec 5) (imm : BitVec 32) (s : State) : Out :=
  setsReg c d (fun k => aluValue op (k.reg a) (immOf imm)) s

def execNop (c : CoreId) (s : State) : Out := dispatch c s (fun k s => s.setCore c k.advance)

def execAdd (c : CoreId) (d a b : BitVec 5) (s : State) : Out := aluRR .add c d a b s
def execSub (c : CoreId) (d a b : BitVec 5) (s : State) : Out := aluRR .sub c d a b s
def execMul (c : CoreId) (d a b : BitVec 5) (s : State) : Out := aluRR .mul c d a b s
def execAnd (c : CoreId) (d a b : BitVec 5) (s : State) : Out := aluRR .and c d a b s
def execOr (c : CoreId) (d a b : BitVec 5) (s : State) : Out := aluRR .or c d a b s
def execXor (c : CoreId) (d a b : BitVec 5) (s : State) : Out := aluRR .xor c d a b s
def execShl (c : CoreId) (d a b : BitVec 5) (s : State) : Out := aluRR .shl c d a b s
def execShr (c : CoreId) (d a b : BitVec 5) (s : State) : Out := aluRR .shr c d a b s
def execSar (c : CoreId) (d a b : BitVec 5) (s : State) : Out := aluRR .sar c d a b s
def execMin (c : CoreId) (d a b : BitVec 5) (s : State) : Out := aluRR .min c d a b s
def execMax (c : CoreId) (d a b : BitVec 5) (s : State) : Out := aluRR .max c d a b s
def execSlt (c : CoreId) (d a b : BitVec 5) (s : State) : Out := aluRR .slt c d a b s
def execSltu (c : CoreId) (d a b : BitVec 5) (s : State) : Out := aluRR .sltu c d a b s
def execAddi (c : CoreId) (d a : BitVec 5) (imm : BitVec 32) (s : State) : Out := aluRI .add c d a imm s
def execMuli (c : CoreId) (d a : BitVec 5) (imm : BitVec 32) (s : State) : Out := aluRI .mul c d a imm s
def execAndi (c : CoreId) (d a : BitVec 5) (imm : BitVec 32) (s : State) : Out := aluRI .and c d a imm s
def execOri (c : CoreId) (d a : BitVec 5) (imm : BitVec 32) (s : State) : Out := aluRI .or c d a imm s
def execXori (c : CoreId) (d a : BitVec 5) (imm : BitVec 32) (s : State) : Out := aluRI .xor c d a imm s
def execShli (c : CoreId) (d a : BitVec 5) (imm : BitVec 32) (s : State) : Out := aluRI .shl c d a imm s
def execShri (c : CoreId) (d a : BitVec 5) (imm : BitVec 32) (s : State) : Out := aluRI .shr c d a imm s
def execSari (c : CoreId) (d a : BitVec 5) (imm : BitVec 32) (s : State) : Out := aluRI .sar c d a imm s
def execMini (c : CoreId) (d a : BitVec 5) (imm : BitVec 32) (s : State) : Out := aluRI .min c d a imm s
def execMaxi (c : CoreId) (d a : BitVec 5) (imm : BitVec 32) (s : State) : Out := aluRI .max c d a imm s
def execSlti (c : CoreId) (d a : BitVec 5) (imm : BitVec 32) (s : State) : Out := aluRI .slt c d a imm s
def execSltui (c : CoreId) (d a : BitVec 5) (imm : BitVec 32) (s : State) : Out := aluRI .sltu c d a imm s

/-- LIL: the immediate, sign-extended. -/
def execLil (c : CoreId) (d : BitVec 5) (imm : BitVec 48) (s : State) : Out := setsReg c d (fun _ => imm.signExtend 64) s

/-- LIH: bits [63:48] from the immediate; immediate bits [47:16] that are not 0 are illegal (R104, Table 4.4). -/
def execLih (c : CoreId) (d : BitVec 5) (imm : BitVec 48) (s : State) : Out :=
  dispatch c s (fun k s =>
    if bits imm 16 32 ≠ 0 then s.setCore c (k.fault stIllegalInstr k.pc)
    else s.setCore c (k.setReg d (BitVec.ofNat 64 (bits imm 0 16 * 2 ^ 48 + (k.reg d).toNat % 2 ^ 48))).advance)

/-- Whether offset and displacement of an LDS or STS are multiples of the access width (R106). -/
def wordAligned (off disp : Nat) (wide : Bool) : Bool := off % wordBytes wide == 0 && disp % wordBytes wide == 0

/-- LDS waits for its buffer to be marked complete; an EMPTY buffer with no writer pending fails (R100, R105). -/
def execLds (c : CoreId) (d : BitVec 5) (buf : BitVec 8) (off : BitVec 5) (disp : BitVec 16) (wide : Bool) (s : State) : Out :=
  dispatch c s (fun k s =>
    let o := (k.reg off).toNat
    if !(wordAligned o disp.toNat wide) then s.setCore c (k.fault stBufAlign k.pc)
    else match (if buf = 255 then some passRecords else k.buffer buf.toNat) with
      | none => s.setCore c (k.fault stBufUnbound k.pc)
      | some b => s.setCore c { k with wait := .lds d (mkRng b (o + disp.toNat) (wordBytes wide)) wide })

/-- STS writes once every earlier reader of the buffer has finished (R99, R105); the pass records are read-only (R80). -/
def execSts (c : CoreId) (src : BitVec 5) (buf : BitVec 8) (off : BitVec 5) (disp : BitVec 16) (wide : Bool) (s : State) : Out :=
  dispatch c s (fun k s =>
    let o := (k.reg off).toNat
    if !(wordAligned o disp.toNat wide) then s.setCore c (k.fault stBufAlign k.pc)
    else if buf = 255 then s.setCore c (k.fault stPassRecordWrite k.pc)
    else match k.buffer buf.toNat with
      | none => s.setCore c (k.fault stBufUnbound k.pc)
      | some b => s.setCore c { k with wait := .sts (k.reg src) (mkRng b (o + disp.toNat) (wordBytes wide)) wide })

/-- The word of a CSR (Tables 4.5, 5.1, 15.3); an unassigned number reads 0 (R107). -/
def csrValue (s : State) (c : CoreId) (n : Nat) : W64 :=
  let k := s.core c
  let g : GroupId := ⟨(n - 0x40) / 4 % 8, Nat.mod_lt _ (by omega)⟩
  let ar := k.arith.getD g.val ArithCnt.zero
  match n with
  | 0x000 => BitVec.ofNat 64 c.val
  | 0x001 => match k.item with | some i => i.workItem.setWidth 64 | none => 0
  | 0x002 => match k.item with | some i => BitVec.ofNat 64 (i.partition.val * 256 + i.context.val) | none => 0
  | 0x003 => BitVec.ofNat 64 (coreTime s c)
  | 0x004 => flagWord k.poisonSeen
  | 0x018 => k.flags.setWidth 64
  | 0x020 => k.coreMode.setWidth 64
  | 0x021 => k.waitLimit.setWidth 64
  | 0x022 => (if k.loopLocked then 2 else 0) + (if k.clkLoop then 1 else 0)
  | 0x060 => k.satMov.setWidth 64
  | 0x061 => k.infMov.setWidth 64
  | 0x062 => k.sndTaken.setWidth 64
  | 0x063 => k.sndSkipped.setWidth 64
  | n =>
    if 0x008 ≤ n ∧ n ≤ 0x014 then (k.stalls.getD (n - 8) 0).setWidth 64
    else if 0x040 ≤ n ∧ n ≤ 0x05F then
      (match (n - 0x40) % 4 with
        | 0 => ar.nan | 1 => ar.inf | 2 => ar.subn | _ => ar.nancode).setWidth 64
    else 0

/-- CSRR. -/
def execCsrr (c : CoreId) (d : BitVec 5) (csr : BitVec 12) (s : State) : Out :=
  setsReg c d (fun _ => csrValue s c csr.toNat) s

/-- The core after a CSRW; none when the CSR is RO or unassigned, or the value is illegal (R107, R408). -/
def csrWrite (k : Core) (n : Nat) (v : W64) : Option Core :=
  match n with
  | 0x004 => some (if v.getLsbD 0 then { k with poisonSeen := false } else k)
  | 0x020 => if 2 < bits v 0 3 then none else some { k with coreMode := BitVec.ofNat 3 (bits v 0 3) }
  | 0x021 => some { k with waitLimit := v.setWidth 32 }
  | 0x022 => some { k with clkLoop := v.getLsbD 0 }
  | _ => none

/-- CSRW. -/
def execCsrw (c : CoreId) (src : BitVec 5) (csr : BitVec 12) (s : State) : Out :=
  dispatch c s (fun k s =>
    match csrWrite k csr.toNat (k.reg src) with
    | some k' =>
      let s := s.setCore c k'.advance
      if k'.onLoop && !k'.clkLoop then changeRate s c (fun k => { k with onLoop := false }) else s
    | none => s.setCore c (k.fault stIllegalInstr k.pc))

/-- The core after a transfer of control to an index; a target outside the program fails (R106). -/
def Core.jumpTo (k : Core) (t : Int) : Core :=
  match k.item with
  | some i => if 0 ≤ t ∧ t < i.progLen.toNat then { k with pc := t.toNat } else k.fault stPcRange k.pc
  | none => k

/-- A conditional branch: offset in instructions from the branch (Table 4.4). -/
def branch (c : CoreId) (cond : W64 → W64 → Bool) (a b : BitVec 5) (off : BitVec 24) (s : State) : Out :=
  dispatch c s (fun k s =>
    s.setCore c (if cond (k.reg a) (k.reg b) then k.jumpTo ((k.pc : Int) + off.toInt) else k.advance))

def execBeq (c : CoreId) (a b : BitVec 5) (off : BitVec 24) (s : State) : Out := branch c (fun x y => x == y) a b off s
def execBne (c : CoreId) (a b : BitVec 5) (off : BitVec 24) (s : State) : Out := branch c (fun x y => x != y) a b off s
def execBlt (c : CoreId) (a b : BitVec 5) (off : BitVec 24) (s : State) : Out := branch c BitVec.slt a b off s
def execBge (c : CoreId) (a b : BitVec 5) (off : BitVec 24) (s : State) : Out := branch c (fun x y => !(x.slt y)) a b off s
def execBltu (c : CoreId) (a b : BitVec 5) (off : BitVec 24) (s : State) : Out := branch c BitVec.ult a b off s
def execBgeu (c : CoreId) (a b : BitVec 5) (off : BitVec 24) (s : State) : Out := branch c (fun x y => !(x.ult y)) a b off s

def execJmp (c : CoreId) (off : BitVec 24) (s : State) : Out :=
  dispatch c s (fun k s => s.setCore c (k.jumpTo ((k.pc : Int) + off.toInt)))

/-- The register that CALL and RET use: s31 (Table 4.4). -/
def linkReg : BitVec 5 := 31

/-- CALL: s31 takes pc + 1; a failing CALL takes no effect (R128). -/
def execCall (c : CoreId) (off : BitVec 24) (s : State) : Out :=
  dispatch c s (fun k s =>
    let k' := k.jumpTo ((k.pc : Int) + off.toInt)
    s.setCore c (match k'.wait with
      | .faulted _ _ => k'
      | _ => k'.setReg linkReg (BitVec.ofNat 64 (k.pc + 1))))

def execRet (c : CoreId) (s : State) : Out :=
  dispatch c s (fun k s => s.setCore c (k.jumpTo ((k.reg linkReg).toNat : Int)))

/-- END waits for every issued and queued instruction, then ends the work item (R129). -/
def execEndItem (c : CoreId) (sreg : BitVec 5) (s : State) : Out :=
  dispatch c s (fun k s => s.setCore c { k with wait := .drainEnd (k.reg sreg) })

/-- A word with a reserved class or opcode, or a nonzero reserved bit (R104). -/
def execIllegalInstruction (c : CoreId) (_word : W64) (s : State) : Out :=
  dispatch c s (fun k s => s.setCore c (k.fault stIllegalInstr k.pc))

end Sys2Proof.Machine
end

