-- ==== Sys2Proof/Machine/Dispatch.lean ====
section
/-! DEFINITION. The meaning of every command: one arm per row of the opcode table. -/

namespace Sys2Proof.Machine

def exec (i : Instr) (s : State) : Host.Outcome State Fault Refusal :=
  match i with
  | .nop c => Sys2Proof.Machine.execNop c s
  | .add c d a b => Sys2Proof.Machine.execAdd c d a b s
  | .sub c d a b => Sys2Proof.Machine.execSub c d a b s
  | .mul c d a b => Sys2Proof.Machine.execMul c d a b s
  | .and c d a b => Sys2Proof.Machine.execAnd c d a b s
  | .or c d a b => Sys2Proof.Machine.execOr c d a b s
  | .xor c d a b => Sys2Proof.Machine.execXor c d a b s
  | .shl c d a b => Sys2Proof.Machine.execShl c d a b s
  | .shr c d a b => Sys2Proof.Machine.execShr c d a b s
  | .sar c d a b => Sys2Proof.Machine.execSar c d a b s
  | .min c d a b => Sys2Proof.Machine.execMin c d a b s
  | .max c d a b => Sys2Proof.Machine.execMax c d a b s
  | .slt c d a b => Sys2Proof.Machine.execSlt c d a b s
  | .sltu c d a b => Sys2Proof.Machine.execSltu c d a b s
  | .addi c d a imm => Sys2Proof.Machine.execAddi c d a imm s
  | .muli c d a imm => Sys2Proof.Machine.execMuli c d a imm s
  | .andi c d a imm => Sys2Proof.Machine.execAndi c d a imm s
  | .ori c d a imm => Sys2Proof.Machine.execOri c d a imm s
  | .xori c d a imm => Sys2Proof.Machine.execXori c d a imm s
  | .shli c d a imm => Sys2Proof.Machine.execShli c d a imm s
  | .shri c d a imm => Sys2Proof.Machine.execShri c d a imm s
  | .sari c d a imm => Sys2Proof.Machine.execSari c d a imm s
  | .mini c d a imm => Sys2Proof.Machine.execMini c d a imm s
  | .maxi c d a imm => Sys2Proof.Machine.execMaxi c d a imm s
  | .slti c d a imm => Sys2Proof.Machine.execSlti c d a imm s
  | .sltui c d a imm => Sys2Proof.Machine.execSltui c d a imm s
  | .lil c d imm => Sys2Proof.Machine.execLil c d imm s
  | .lih c d imm => Sys2Proof.Machine.execLih c d imm s
  | .lds c d buf off disp wide => Sys2Proof.Machine.execLds c d buf off disp wide s
  | .sts c s_ buf off disp wide => Sys2Proof.Machine.execSts c s_ buf off disp wide s
  | .csrr c d csr => Sys2Proof.Machine.execCsrr c d csr s
  | .csrw c s_ csr => Sys2Proof.Machine.execCsrw c s_ csr s
  | .beq c a b off => Sys2Proof.Machine.execBeq c a b off s
  | .bne c a b off => Sys2Proof.Machine.execBne c a b off s
  | .blt c a b off => Sys2Proof.Machine.execBlt c a b off s
  | .bge c a b off => Sys2Proof.Machine.execBge c a b off s
  | .bltu c a b off => Sys2Proof.Machine.execBltu c a b off s
  | .bgeu c a b off => Sys2Proof.Machine.execBgeu c a b off s
  | .jmp c off => Sys2Proof.Machine.execJmp c off s
  | .call c off => Sys2Proof.Machine.execCall c off s
  | .ret c => Sys2Proof.Machine.execRet c s
  | .endItem c sreg => Sys2Proof.Machine.execEndItem c sreg s
  | .illegalInstruction c word => Sys2Proof.Machine.execIllegalInstruction c word s
  | .tload c f => Sys2Proof.Machine.execTload c f s
  | .tloadComplete c g => Sys2Proof.Machine.execTloadComplete c g s
  | .pass c f => Sys2Proof.Machine.execPass c f s
  | .passComplete c g => Sys2Proof.Machine.execPassComplete c g s
  | .fcfg c f => Sys2Proof.Machine.execFcfg c f s
  | .dcfg c f => Sys2Proof.Machine.execDcfg c f s
  | .ocfg c f => Sys2Proof.Machine.execOcfg c f s
  | .scfg c f => Sys2Proof.Machine.execScfg c f s
  | .queueIssue c q => Sys2Proof.Machine.execQueueIssue c q s
  | .vadd c f => Sys2Proof.Machine.execVadd c f s
  | .vsub c f => Sys2Proof.Machine.execVsub c f s
  | .vmul c f => Sys2Proof.Machine.execVmul c f s
  | .vfma c f => Sys2Proof.Machine.execVfma c f s
  | .vmax c f => Sys2Proof.Machine.execVmax c f s
  | .vmin c f => Sys2Proof.Machine.execVmin c f s
  | .vcopy c f => Sys2Proof.Machine.execVcopy c f s
  | .vfill c f => Sys2Proof.Machine.execVfill c f s
  | .vexp2 c f => Sys2Proof.Machine.execVexp2 c f s
  | .vrcp c f => Sys2Proof.Machine.execVrcp c f s
  | .vrsq c f => Sys2Proof.Machine.execVrsq c f s
  | .vcvt c f => Sys2Proof.Machine.execVcvt c f s
  | .vsum c f => Sys2Proof.Machine.execVsum c f s
  | .vrmax c f => Sys2Proof.Machine.execVrmax c f s
  | .vsumsq c f => Sys2Proof.Machine.execVsumsq c f s
  | .vrot c f => Sys2Proof.Machine.execVrot c f s
  | .vectorComplete c => Sys2Proof.Machine.execVectorComplete c s
  | .mload c f => Sys2Proof.Machine.execMload c f s
  | .mstore c f => Sys2Proof.Machine.execMstore c f s
  | .mcopy c f => Sys2Proof.Machine.execMcopy c f s
  | .moveComplete c idx farPoison => Sys2Proof.Machine.execMoveComplete c idx farPoison s
  | .nblaunch c f => Sys2Proof.Machine.execNblaunch c f s
  | .nbpoll c d tgtReg unit => Sys2Proof.Machine.execNbpoll c d tgtReg unit s
  | .nbflush c addrReg lenReg => Sys2Proof.Machine.execNbflush c addrReg lenReg s
  | .nbinv c buf => Sys2Proof.Machine.execNbinv c buf s
  | .semadd c semReg valReg => Sys2Proof.Machine.execSemadd c semReg valReg s
  | .semwait c semReg valReg consume => Sys2Proof.Machine.execSemwait c semReg valReg consume s
  | .semwaitSatisfied c => Sys2Proof.Machine.execSemwaitSatisfied c s
  | .semrd c d semReg => Sys2Proof.Machine.execSemrd c d semReg s
  | .fence c mask => Sys2Proof.Machine.execFence c mask s
  | .bufstate c buf st => Sys2Proof.Machine.execBufstate c buf st s
  | .flagset c maskReg => Sys2Proof.Machine.execFlagset c maskReg s
  | .flagclr c maskReg => Sys2Proof.Machine.execFlagclr c maskReg s
  | .flagwait c maskReg all => Sys2Proof.Machine.execFlagwait c maskReg all s
  | .cntadd c cnt valReg mask => Sys2Proof.Machine.execCntadd c cnt valReg mask s
  | .cntwait c cnt valReg => Sys2Proof.Machine.execCntwait c cnt valReg s
  | .coll c descBuf descReg => Sys2Proof.Machine.execColl c descBuf descReg s
  | .collComplete c idx => Sys2Proof.Machine.execCollComplete c idx s
  | .wait c event a b => Sys2Proof.Machine.execWait c event a b s
  | .waitEvent c => Sys2Proof.Machine.execWaitEvent c s
  | .waitLimitExpiry c => Sys2Proof.Machine.execWaitLimitExpiry c s
  | .workItemStart c => Sys2Proof.Machine.execWorkItemStart c s
  | .workItemFault c => Sys2Proof.Machine.execWorkItemFault c s
  | .preemptRequest c => Sys2Proof.Machine.execPreemptRequest c s
  | .workItemResume c => Sys2Proof.Machine.execWorkItemResume c s
  | .arrayFault c g syn => Sys2Proof.Machine.execArrayFault c g syn s
  | .activeParityCheck c g array bad => Sys2Proof.Machine.execActiveParityCheck c g array bad s
  | .thermalEmergency c allowanceNs => Sys2Proof.Machine.execThermalEmergency c allowanceNs s
  | .thermalRelease c => Sys2Proof.Machine.execThermalRelease c s
  | .sampleComplete c => Sys2Proof.Machine.execSampleComplete c s
  | .samplerFault c => Sys2Proof.Machine.execSamplerFault c s
  | .soundingRecord t => Sys2Proof.Machine.execSoundingRecord t s
  | .escalationSignal t ctx tag => Sys2Proof.Machine.execEscalationSignal t ctx tag s
  | .workItemEnd t => Sys2Proof.Machine.execWorkItemEnd t s
  | .idleRetentionTimer c => Sys2Proof.Machine.execIdleRetentionTimer c s
  | .idleOffTimer c => Sys2Proof.Machine.execIdleOffTimer c s
  | .coreWake c => Sys2Proof.Machine.execCoreWake c s
  | .clockSwitch c => Sys2Proof.Machine.execClockSwitch c s
  | .refreshInterval c ch => Sys2Proof.Machine.execRefreshInterval c ch s
  | .channelRead c a => Sys2Proof.Machine.execChannelRead c a s
  | .channelWrite c a data mask poison => Sys2Proof.Machine.execChannelWrite c a data mask poison s
  | .rowCloseTimer c ch half bank => Sys2Proof.Machine.execRowCloseTimer c ch half bank s
  | .bandChange c l => Sys2Proof.Machine.execBandChange c l s
  | .throttleStep c ch => Sys2Proof.Machine.execThrottleStep c ch s
  | .protectedHoldEnd c ch mpRelease => Sys2Proof.Machine.execProtectedHoldEnd c ch mpRelease s
  | .weirWindow c => Sys2Proof.Machine.execWeirWindow c s
  | .weirCommitGo fn => Sys2Proof.Machine.execWeirCommitGo fn s
  | .eddyWrite c a data mask => Sys2Proof.Machine.execEddyWrite c a data mask s
  | .eddyFlush c ch idx => Sys2Proof.Machine.execEddyFlush c ch idx s
  | .eddyAgeTimeout c ch => Sys2Proof.Machine.execEddyAgeTimeout c ch s
  | .atomicAdd c a word wide val => Sys2Proof.Machine.execAtomicAdd c a word wide val s
  | .atomicCas c a word wide expect new => Sys2Proof.Machine.execAtomicCas c a word wide expect new s
  | .retrainTrigger c ch cause => Sys2Proof.Machine.execRetrainTrigger c ch cause s
  | .retrainComplete c ch failing => Sys2Proof.Machine.execRetrainComplete c ch failing s
  | .repairStart c u => Sys2Proof.Machine.execRepairStart c u s
  | .repairRowStep c entry => Sys2Proof.Machine.execRepairRowStep c entry s
  | .channelLost c ch cause => Sys2Proof.Machine.execChannelLost c ch cause s
  | .selfRefreshEnter c => Sys2Proof.Machine.execSelfRefreshEnter c s
  | .selfRefreshExit c => Sys2Proof.Machine.execSelfRefreshExit c s
  | .lineRestore region line src => Sys2Proof.Machine.execLineRestore region line src s
  | .scrubRow c => Sys2Proof.Machine.execScrubRow c s
  | .codeTestEnable fn value => Sys2Proof.Machine.execCodeTestEnable fn value s
  | .codeTestWriteRaw fn => Sys2Proof.Machine.execCodeTestWriteRaw fn s
  | .codeTestWriteEncoded fn => Sys2Proof.Machine.execCodeTestWriteEncoded fn s
  | .codeTestReadRaw fn => Sys2Proof.Machine.execCodeTestReadRaw fn s
  | .codeTestReadFull fn => Sys2Proof.Machine.execCodeTestReadFull fn s
  | .codeTestReadActivation fn => Sys2Proof.Machine.execCodeTestReadActivation fn s
  | .codeTestOpDone => Sys2Proof.Machine.execCodeTestOpDone s
  | .epochChangeStart => Sys2Proof.Machine.execEpochChangeStart s
  | .epochFlip => Sys2Proof.Machine.execEpochFlip s
  | .towerMigration t => Sys2Proof.Machine.execTowerMigration t s
  | .spreadMapChange fn value => Sys2Proof.Machine.execSpreadMapChange fn value s
  | .farLinkDown p => Sys2Proof.Machine.execFarLinkDown p s
  | .farPortRetrain p r => Sys2Proof.Machine.execFarPortRetrain p r s
  | .farEventPoll p recs => Sys2Proof.Machine.execFarEventPoll p recs s
  | .spillPage k => Sys2Proof.Machine.execSpillPage k s
  | .spillCopyDone k => Sys2Proof.Machine.execSpillCopyDone k s
  | .spillPinTimeout k => Sys2Proof.Machine.execSpillPinTimeout k s
  | .fillPage k => Sys2Proof.Machine.execFillPage k s
  | .fillDone k poisoned => Sys2Proof.Machine.execFillDone k poisoned s
  | .launchAdmit c => Sys2Proof.Machine.execLaunchAdmit c s
  | .nbLaunchComplete c => Sys2Proof.Machine.execNbLaunchComplete c s
  | .nbStatusPoll c => Sys2Proof.Machine.execNbStatusPoll c s
  | .nbEnd c u f => Sys2Proof.Machine.execNbEnd c u f s
  | .smark c u f => Sys2Proof.Machine.execSmark c u f s
  | .loop c u f => Sys2Proof.Machine.execLoop c u f s
  | .jnz c u f => Sys2Proof.Machine.execJnz c u f s
  | .nbAddi c u a b imm => Sys2Proof.Machine.execNbAddi c u a b imm s
  | .lui c u a imm => Sys2Proof.Machine.execLui c u a imm s
  | .alu c u f => Sys2Proof.Machine.execAlu c u f s
  | .ldw c u f => Sys2Proof.Machine.execLdw c u f s
  | .stw c u f => Sys2Proof.Machine.execStw c u f s
  | .gather c u f => Sys2Proof.Machine.execGather c u f s
  | .ldr c u f => Sys2Proof.Machine.execLdr c u f s
  | .str c u f => Sys2Proof.Machine.execStr c u f s
  | .cvt c u f => Sys2Proof.Machine.execCvt c u f s
  | .rload c u f => Sys2Proof.Machine.execRload c u f s
  | .kvcfg c u f => Sys2Proof.Machine.execKvcfg c u f s
  | .rotcfg c u f => Sys2Proof.Machine.execRotcfg c u f s
  | .dots c u f => Sys2Proof.Machine.execDots c u f s
  | .sacc c u f => Sys2Proof.Machine.execSacc c u f s
  | .vop c u f => Sys2Proof.Machine.execVop c u f s
  | .vred c u f => Sys2Proof.Machine.execVred c u f s
  | .segmentGrant c u => Sys2Proof.Machine.execSegmentGrant c u s
  | .segmentLimit c u => Sys2Proof.Machine.execSegmentLimit c u s
  | .nbRefreshSuspend c ch => Sys2Proof.Machine.execNbRefreshSuspend c ch s
  | .classbMeterLimit c l => Sys2Proof.Machine.execClassbMeterLimit c l s
  | .fixedWindowClose c u => Sys2Proof.Machine.execFixedWindowClose c u s
  | .nbUnitFault c u syn => Sys2Proof.Machine.execNbUnitFault c u syn s
  | .pageAllocate ctx seqId => Sys2Proof.Machine.execPageAllocate ctx seqId s
  | .kvWaitTimeout ctx seqId => Sys2Proof.Machine.execKvWaitTimeout ctx seqId s
  | .tailCountRaise k => Sys2Proof.Machine.execTailCountRaise k s
  | .layerPlanBuild ctx step => Sys2Proof.Machine.execLayerPlanBuild ctx step s
  | .pageMigrate k => Sys2Proof.Machine.execPageMigrate k s
  | .pageMigrateCommit k => Sys2Proof.Machine.execPageMigrateCommit k s
  | .lowWaterSpill ctx c => Sys2Proof.Machine.execLowWaterSpill ctx c s
  | .ringBlockLanded ctx seqId => Sys2Proof.Machine.execRingBlockLanded ctx seqId s
  | .tableBuilderDone tableId ok => Sys2Proof.Machine.execTableBuilderDone tableId ok s
  | .tableDrained tableId => Sys2Proof.Machine.execTableDrained tableId s
  | .clockUnlock d => Sys2Proof.Machine.execClockUnlock d s
  | .clockRelock d => Sys2Proof.Machine.execClockRelock d s
  | .clockUnlockTimeout d => Sys2Proof.Machine.execClockUnlockTimeout d s
  | .syncRound => Sys2Proof.Machine.execSyncRound s
  | .fwSyncReq fn tag => Sys2Proof.Machine.execFwSyncReq fn tag s
  | .syncRoundClose => Sys2Proof.Machine.execSyncRoundClose s
  | .rateChange c q => Sys2Proof.Machine.execRateChange c q s
  | .flitReceive l rev f => Sys2Proof.Machine.execFlitReceive l rev f s
  | .flitCrcError l rev seqNo => Sys2Proof.Machine.execFlitCrcError l rev seqNo s
  | .linkTrain l failing => Sys2Proof.Machine.execLinkTrain l failing s
  | .linkReplayWindow l laneErrs => Sys2Proof.Machine.execLinkReplayWindow l laneErrs s
  | .linkQuiesce l => Sys2Proof.Machine.execLinkQuiesce l s
  | .towerFence t cause => Sys2Proof.Machine.execTowerFence t cause s
  | .powerOn millivolts latches => Sys2Proof.Machine.execPowerOn millivolts latches s
  | .perstDeassert => Sys2Proof.Machine.execPerstDeassert s
  | .perstAssert => Sys2Proof.Machine.execPerstAssert s
  | .startupReady => Sys2Proof.Machine.execStartupReady s
  | .headwaterBoot selftest a b retestPass => Sys2Proof.Machine.execHeadwaterBoot selftest a b retestPass s
  | .ringHelloGo fn hello => Sys2Proof.Machine.execRingHelloGo fn hello s
  | .doorbellPoll ctx tail head => Sys2Proof.Machine.execDoorbellPoll ctx tail head s
  | .ringWake fn value => Sys2Proof.Machine.execRingWake fn value s
  | .descFetch ctx desc => Sys2Proof.Machine.execDescFetch ctx desc s
  | .descNop ctx seq => Sys2Proof.Machine.execDescNop ctx seq s
  | .work ctx seq => Sys2Proof.Machine.execWork ctx seq s
  | .step ctx seq => Sys2Proof.Machine.execStep ctx seq s
  | .copy ctx seq src => Sys2Proof.Machine.execCopy ctx seq src s
  | .seqOpen ctx seq => Sys2Proof.Machine.execSeqOpen ctx seq s
  | .seqEnd ctx seq => Sys2Proof.Machine.execSeqEnd ctx seq s
  | .seqSet ctx seq => Sys2Proof.Machine.execSeqSet ctx seq s
  | .seqNarrow ctx seq => Sys2Proof.Machine.execSeqNarrow ctx seq s
  | .sound ctx seq => Sys2Proof.Machine.execSound ctx seq s
  | .tableCreate ctx seq => Sys2Proof.Machine.execTableCreate ctx seq s
  | .tableDestroy ctx seq => Sys2Proof.Machine.execTableDestroy ctx seq s
  | .ctxCreate fn seq block kvCfg => Sys2Proof.Machine.execCtxCreate fn seq block kvCfg s
  | .ctxDestroy fn seq ctx => Sys2Proof.Machine.execCtxDestroy fn seq ctx s
  | .ctxAdopt fn seq ctx block => Sys2Proof.Machine.execCtxAdopt fn seq ctx block s
  | .ctxReset fn seq ctx block => Sys2Proof.Machine.execCtxReset fn seq ctx block s
  | .regionCreate fn seq desc => Sys2Proof.Machine.execRegionCreate fn seq desc s
  | .regionDestroy fn seq region => Sys2Proof.Machine.execRegionDestroy fn seq region s
  | .partSet fn seq part cores semFirst semCount => Sys2Proof.Machine.execPartSet fn seq part cores semFirst semCount s
  | .completionWrite ctx => Sys2Proof.Machine.execCompletionWrite ctx s
  | .moderationTimer ctx => Sys2Proof.Machine.execModerationTimer ctx s
  | .msixUnmask fn vector => Sys2Proof.Machine.execMsixUnmask fn vector s
  | .heartbeatCheck fn word => Sys2Proof.Machine.execHeartbeatCheck fn word s
  | .hostLost fn => Sys2Proof.Machine.execHostLost fn s
  | .contextPark ctx => Sys2Proof.Machine.execContextPark ctx s
  | .flr fn => Sys2Proof.Machine.execFlr fn s
  | .vfEnable numVfs => Sys2Proof.Machine.execVfEnable numVfs s
  | .pcieLinkDown => Sys2Proof.Machine.execPcieLinkDown s
  | .portLinkUp p => Sys2Proof.Machine.execPortLinkUp p s
  | .portLinkDown p => Sys2Proof.Machine.execPortLinkDown p s
  | .portTrain p partner400 pcsUp => Sys2Proof.Machine.execPortTrain p partner400 pcsUp s
  | .fabricAnnounce p => Sys2Proof.Machine.execFabricAnnounce p s
  | .addressResolution p k => Sys2Proof.Machine.execAddressResolution p k s
  | .data p pk => Sys2Proof.Machine.execData p pk s
  | .ack p pk => Sys2Proof.Machine.execAck p pk s
  | .probe p pk => Sys2Proof.Machine.execProbe p pk s
  | .pace p pk => Sys2Proof.Machine.execPace p pk s
  | .withdraw p pk => Sys2Proof.Machine.execWithdraw p pk s
  | .connect p pk => Sys2Proof.Machine.execConnect p pk s
  | .connectAck p pk => Sys2Proof.Machine.execConnectAck p pk s
  | .close p pk => Sys2Proof.Machine.execClose p pk s
  | .submit p pk => Sys2Proof.Machine.execSubmit p pk s
  | .complete p pk => Sys2Proof.Machine.execComplete p pk s
  | .connectRetry conn => Sys2Proof.Machine.execConnectRetry conn s
  | .connectionIdleTimeout conn => Sys2Proof.Machine.execConnectionIdleTimeout conn s
  | .pathProbeTimer peer p => Sys2Proof.Machine.execPathProbeTimer peer p s
  | .pathSilenceTimeout peer p => Sys2Proof.Machine.execPathSilenceTimeout peer p s
  | .pathRetryTimer peer p => Sys2Proof.Machine.execPathRetryTimer peer p s
  | .ackTimer conn => Sys2Proof.Machine.execAckTimer conn s
  | .retransmitTimeout conn psn => Sys2Proof.Machine.execRetransmitTimeout conn psn s
  | .ccRound conn delayUs => Sys2Proof.Machine.execCcRound conn delayUs s
  | .collTimeout comm collSeq => Sys2Proof.Machine.execCollTimeout comm collSeq s
  | .withdrawMemoryExpiry comm collSeq => Sys2Proof.Machine.execWithdrawMemoryExpiry comm collSeq s
  | .paceHintSend comm reason latenessNs => Sys2Proof.Machine.execPaceHintSend comm reason latenessNs s
  | .queueFill t => Sys2Proof.Machine.execQueueFill t s
  | .priorityPreempt c => Sys2Proof.Machine.execPriorityPreempt c s
  | .rotateWork c => Sys2Proof.Machine.execRotateWork c s
  | .coreFenceRequeue c => Sys2Proof.Machine.execCoreFenceRequeue c s
  | .watchdogExpire p cause => Sys2Proof.Machine.execWatchdogExpire p cause s
  | .processorResume p imageOk journalOk => Sys2Proof.Machine.execProcessorResume p imageOk journalOk s
  | .dumpArchive p slot => Sys2Proof.Machine.execDumpArchive p slot s
  | .fwHoldClear fn value => Sys2Proof.Machine.execFwHoldClear fn value s
  | .fwDumpAck fn value => Sys2Proof.Machine.execFwDumpAck fn value s
  | .fwImageCommit fn value => Sys2Proof.Machine.execFwImageCommit fn value s
  | .processorWake p => Sys2Proof.Machine.execProcessorWake p s
  | .avsRaise s_ millivolts => Sys2Proof.Machine.execAvsRaise s_ millivolts s
  | .avsAck s_ => Sys2Proof.Machine.execAvsAck s_ s
  | .avsAckTimeout s_ => Sys2Proof.Machine.execAvsAckTimeout s_ s
  | .stageFault s_ faultStatus => Sys2Proof.Machine.execStageFault s_ faultStatus s
  | .capSample powerW => Sys2Proof.Machine.execCapSample powerW s
  | .strictPowerUp d step ready => Sys2Proof.Machine.execStrictPowerUp d step ready s
  | .sensorSample s_ conversion => Sys2Proof.Machine.execSensorSample s_ conversion s
  | .sensorDisagree h => Sys2Proof.Machine.execSensorDisagree h s
  | .sensorReturn h => Sys2Proof.Machine.execSensorReturn h s
  | .modelUpdate h predicted => Sys2Proof.Machine.execModelUpdate h predicted s
  | .predictionStale h => Sys2Proof.Machine.execPredictionStale h s
  | .fastStop t h allowanceNs => Sys2Proof.Machine.execFastStop t h allowanceNs s
  | .fastStopRelease t => Sys2Proof.Machine.execFastStopRelease t s
  | .ioDieLimit d => Sys2Proof.Machine.execIoDieLimit d s
  | .coolantCheck => Sys2Proof.Machine.execCoolantCheck s
  | .flowSample flow inlet outlet => Sys2Proof.Machine.execFlowSample flow inlet outlet s
  | .suddenStop => Sys2Proof.Machine.execSuddenStop s
  | .orderlyStop => Sys2Proof.Machine.execOrderlyStop s
  | .pldmUpdate sensor => Sys2Proof.Machine.execPldmUpdate sensor s
  | .thermalSummaryTimer => Sys2Proof.Machine.execThermalSummaryTimer s
  | .logRecord s_ => Sys2Proof.Machine.execLogRecord s_ s
  | .mirrorWrite => Sys2Proof.Machine.execMirrorWrite s
  | .mirrorSignalTimer => Sys2Proof.Machine.execMirrorSignalTimer s
  | .recoveryDequeue => Sys2Proof.Machine.execRecoveryDequeue s
  | .errLogAck fn value => Sys2Proof.Machine.execErrLogAck fn value s
  | .errLogSel fn value => Sys2Proof.Machine.execErrLogSel fn value s
  | .errFenceClear fn value => Sys2Proof.Machine.execErrFenceClear fn value s
  | .errSafeReq fn value => Sys2Proof.Machine.execErrSafeReq fn value s
  | .safeEnter cause => Sys2Proof.Machine.execSafeEnter cause s
  | .getCert m tag index offset => Sys2Proof.Machine.execGetCert m tag index offset s
  | .quote m tag nonce mask => Sys2Proof.Machine.execQuote m tag nonce mask s
  | .sessionOpen m tag nonce ciphertext => Sys2Proof.Machine.execSessionOpen m tag nonce ciphertext s
  | .sessionClose m tag sid counter authentic => Sys2Proof.Machine.execSessionClose m tag sid counter authentic s
  | .ownerSet m tag sid counter authentic key signature => Sys2Proof.Machine.execOwnerSet m tag sid counter authentic key signature s
  | .tamperSet m tag sid counter authentic mask signature => Sys2Proof.Machine.execTamperSet m tag sid counter authentic mask signature s
  | .extend m tag sid counter authentic reg value => Sys2Proof.Machine.execExtend m tag sid counter authentic reg value s
  | .cakInstall m tag sid counter authentic ports ckn cak => Sys2Proof.Machine.execCakInstall m tag sid counter authentic ports ckn cak s
  | .bundleWrite m tag sid counter authentic offset bytes => Sys2Proof.Machine.execBundleWrite m tag sid counter authentic offset bytes s
  | .bundleCheck m tag sid counter authentic => Sys2Proof.Machine.execBundleCheck m tag sid counter authentic s
  | .dumpRead m tag sid counter authentic entry offset => Sys2Proof.Machine.execDumpRead m tag sid counter authentic entry offset s
  | .unknownMailboxCommand m tag code => Sys2Proof.Machine.execUnknownMailboxCommand m tag code s
  | .sessionIdleTimeout m => Sys2Proof.Machine.execSessionIdleTimeout m s
  | .decapsulationKeyExpiry m => Sys2Proof.Machine.execDecapsulationKeyExpiry m s
  | .entropyHealthFail => Sys2Proof.Machine.execEntropyHealthFail s
  | .tamperTrip i_ => Sys2Proof.Machine.execTamperTrip i_ s
  | .eraseComplete => Sys2Proof.Machine.execEraseComplete s
  | .inputUndervoltage millivolts => Sys2Proof.Machine.execInputUndervoltage millivolts s
  | .inputOvervoltage millivolts => Sys2Proof.Machine.execInputOvervoltage millivolts s
  | .unmappedAccess fn offset isWrite => Sys2Proof.Machine.execUnmappedAccess fn offset isWrite s
  | .registerWrite fn offset byteEnables value => Sys2Proof.Machine.execRegisterWrite fn offset byteEnables value s
  | .hotReset => Sys2Proof.Machine.execHotReset s
  | .inputOvervoltageReturn millivolts => Sys2Proof.Machine.execInputOvervoltageReturn millivolts s
  | .farLinkUp p log2width rate cap => Sys2Proof.Machine.execFarLinkUp p log2width rate cap s
  | .migrationPinTimeout k => Sys2Proof.Machine.execMigrationPinTimeout k s
  | .priorityFlowControlFrame p prio pause => Sys2Proof.Machine.execPriorityFlowControlFrame p prio pause s
  | .mkaFrame p establishes => Sys2Proof.Machine.execMkaFrame p establishes s
  | .secureAssociationKeyRotation p => Sys2Proof.Machine.execSecureAssociationKeyRotation p s
  | .discardedFrame p => Sys2Proof.Machine.execDiscardedFrame p s
  | .rateRecordEmit c => Sys2Proof.Machine.execRateRecordEmit c s

end Sys2Proof.Machine
end

