-- ==== Sys2Proof/Machine/Step.lean ====
section
/-! DEFINITION. One step: the command at the front of the queue, or, on an empty queue, one nanosecond (log entry 3). -/

namespace Sys2Proof.Machine

/-- Takes the command at the front of the queue; an idle block lets 1 ns pass. -/
def step (s : State) : Host.Outcome State Fault Refusal :=
  match s.pending with
  | [] => .next { s with now := s.now + 1 }
  | c :: cs => exec c { s with pending := cs }

/-- The state with the command that a word spells at the front of its queue: no row of the table gives bits, so no word
spells one (log entry 1). -/
def State.withFetchWord (s : State) (nbits w : Nat) : State :=
  match decodeTableWord nbits w with
  | none => s
  | some c => { s with pending := c :: s.pending }

end Sys2Proof.Machine
end

