-- ==== Sys2Proof/Safety.lean ====
section
/-! DEFINITION. What a safe run is: every step answers a next state, and the four byte memories stay canonical. -/

namespace Sys2Proof.Machine

/-- The canonical form of every byte memory. -/
def State.memWf (s : State) : Prop :=
  Memory.wf zeroByte s.coreStore = true ∧ Memory.wf dramDefault s.dram = true ∧
    Memory.wf zeroByte s.farMem = true ∧ Memory.wf zeroByte s.hostMem = true

/-- A step that answers a next state. -/
def stepsTo (s t : State) : Prop := step s = .next t

/-- States that a run from reset with any queue of commands can reach. -/
inductive Reachable : State → Prop
  | reset (q : List Instr) : Reachable { State.reset with pending := q }
  | step (s t : State) : Reachable s → stepsTo s t → Reachable t

end Sys2Proof.Machine
end

