-- ==== Sys2Proof/WellFormed.lean ====
section
/-! DEFINITION. Which operands a sender can give a command: sizes and ranges that the spec fixes and that the types leave open. A command
outside them spells nothing that can arrive at Kegor; `exec` is total all the same. -/

namespace Sys2Proof

/-- Whether a source number lies within its kind (Table 17.1, source_index). -/
def Source.wf (x : Source) : Bool :=
  match x.kind with
  | 0 | 1 | 2 => decide (x.index < 512)
  | 3 => decide (x.index < 8)
  | 4 => decide (8 ≤ x.index) && decide (x.index < 10)
  | 5 => decide (x.index < 12)

/-- Bytes of a function's BAR0: 32 MiB for the physical function, 64 KiB for a virtual one. -/
def barSize (fn : FnId) : Nat := if fn = 0 then 0x2000000 else 0x10000

/-- A packet's payload: up to 4,096 B, a multiple of 32 B (R359). -/
def Packet.wf (p : Packet) : Bool := decide (p.payload.length ≤ 512) && decide (p.payload.length % 4 = 0)

/-- Whether a list names nothing twice. -/
def distinct {α : Type} [DecidableEq α] : List α → Bool
  | [] => true
  | a :: t => !(t.contains a) && distinct t

/-- Whether a command's operands are ones that a sender can give. -/
def Instr.wf : Instr → Bool
  -- R107: LIH holds bits [63:48] in 16 bits; R57: a rate is 4 to 16 sixteenths
  | .lih _ _ imm => decide (imm.toNat < 2 ^ 16)
  | .rateChange _ q => decide (4 ≤ q.val)
  -- R487: an access lies in the function's BAR0; a register starts at a multiple of 4
  | .registerWrite fn off _ _ => decide (off < barSize fn) && decide (off % 4 = 0)
  | .unmappedAccess fn off _ => decide (off < barSize fn)
  -- R329: a descriptor is 64 B
  | .descFetch _ d => decide (d.length = 8)
  -- R449: a record comes from a source of Table 17.1
  | .logRecord x => x.wf
  -- a lane or connection fails once in a report
  | .retrainComplete _ _ l => distinct l
  | .linkTrain _ l => distinct l
  -- R359: payloads
  | .data _ p | .ack _ p | .probe _ p | .pace _ p | .withdraw _ p | .connect _ p | .connectAck _ p | .close _ p | .submit _ p | .complete _ p => p.wf
  -- R466, Table 18.2: payload sizes of the mailbox, a request of 16 KiB at most with its header of 16 B
  | .sessionOpen _ _ _ ct => decide (ct.length = 1088)
  | .ownerSet _ _ _ _ _ key sig => decide (key.length = 1952) && (decide (sig.length = 0) || decide (sig.length = 3309))
  | .tamperSet _ _ _ _ _ _ sig => decide (sig.length = 3309)
  | .bundleWrite _ _ _ _ _ _ bytes => decide (bytes.length ≤ 16364)
  | .unknownMailboxCommand _ _ code => !([1, 2, 3, 4, 0x10, 0x11, 0x12, 0x13, 0x14, 0x15, 0x16].contains code.toNat)
  | _ => true

end Sys2Proof
end

