-- ==== Sys2Proof/Certificates/Slice0/Obligations.lean ====
section
/-! DEFINITION. What is claimed of the model: one definition for each statement, over every state that meets its hypotheses. A statement
that gives the next state whole, as a record of the state before, says its frame as well: every field it does not name is unchanged. -/

open Sys2Proof Sys2Proof.Machine

namespace Sys2Proof.Claims

/-- The state with a register of a core written and its program counter one on; a write to s0 changes no register. -/
def writesReg (s : State) (c : CoreId) (d : BitVec 5) (v : W64) : State :=
  let k := s.core c
  s.setCore c { k with regs := (if d = 0 then k.regs else k.regs.set d.toNat v), pc := k.pc + 1 }
/-- The state with a core's dispatch stopped by an instruction that fails: its queued instructions are discarded (R128). -/
def faults (s : State) (c : CoreId) (status : BitVec 16) : State :=
  let k := s.core c
  s.setCore c { k with wait := .faulted status k.pc, queues := [], stalled := none }
/-- The state with a core's program counter at an index. -/
def goesTo (s : State) (c : CoreId) (pc : Nat) : State := s.setCore c { s.core c with pc := pc }
/-- A branch target of a core: the index from which the offset counts is the branch's own. -/
def target (s : State) (c : CoreId) (off : BitVec 24) : Int := ((s.core c).pc : Int) + off.toInt
/-- A memory after consecutive bytes from an address were written: those bytes read as written, every other byte as before. -/
def overwrites (d : Nat → Byte) (m m' : Memory) (lo : Nat) (bs : List Byte) : Prop :=
  ∀ x, memRead d m' x = if lo ≤ x ∧ x < lo + bs.length then bs.getD (x - lo) 0 else memRead d m x
/-- A core that can take an event: a work item runs, dispatch waits for nothing, its island runs. -/
def quiet (k : Core) : Prop := k.wait = .none ∧ k.stalled = none ∧ k.mode = .run ∧ k.paused = false ∧ k.item.isSome = true
/-- The record that a source emitted last. -/
def reports (t : State) (src : Source) (ev : Ev) : Prop :=
  ∃ r, (t.err.srcBuf src).buf.getLast? = some r ∧ r.code = ev.code ∧ r.severity = ev.severity
/-- A source whose buffer has room for the records of one command. -/
def hasRoom (s : State) (src : Source) : Prop := (s.err.srcBuf src).buf.length < 16
/-- Whether a target lies within the running work item's program. -/
def inProgram (s : State) (c : CoreId) (t : Int) : Prop := ∃ i, (s.core c).item = some i ∧ 0 ≤ t ∧ t < i.progLen.toNat

end Sys2Proof.Claims

open Sys2Proof.Claims

/-! ## Scalar and control instructions (Tables 4.3, 4.4) -/

/-- Format RR (R95, R105, Table 4.4): 64-bit two's complement that wraps, shift amounts in bits [5:0], signed and unsigned comparisons;
nothing but the register d and the pc changes, and no register when d is s0.
Format RI (R105, Table 4.4): the second operand is the immediate, sign-extended. -/
def Obligations.ArithmeticResults : Prop :=
  (∀ (s : State) (c : CoreId) (d a b : BitVec 5), (s.core c).dispatching = true →
    let x := (s.core c).reg a
    let y := (s.core c).reg b
    exec (.add c d a b) s = .next (writesReg s c d (x + y)) ∧
    exec (.sub c d a b) s = .next (writesReg s c d (x - y)) ∧
    exec (.mul c d a b) s = .next (writesReg s c d (BitVec.ofNat 64 (x.toNat * y.toNat))) ∧
    exec (.and c d a b) s = .next (writesReg s c d (x &&& y)) ∧
    exec (.or c d a b) s = .next (writesReg s c d (x ||| y)) ∧
    exec (.xor c d a b) s = .next (writesReg s c d (x ^^^ y)) ∧
    exec (.shl c d a b) s = .next (writesReg s c d (x <<< (y.toNat % 64))) ∧
    exec (.shr c d a b) s = .next (writesReg s c d (x >>> (y.toNat % 64))) ∧
    exec (.sar c d a b) s = .next (writesReg s c d (x.sshiftRight (y.toNat % 64))) ∧
    exec (.min c d a b) s = .next (writesReg s c d (if x.toInt ≤ y.toInt then x else y)) ∧
    exec (.max c d a b) s = .next (writesReg s c d (if x.toInt ≤ y.toInt then y else x)) ∧
    exec (.slt c d a b) s = .next (writesReg s c d (if x.toInt < y.toInt then 1 else 0)) ∧
    exec (.sltu c d a b) s = .next (writesReg s c d (if x.toNat < y.toNat then 1 else 0))) ∧
  (∀ (s : State) (c : CoreId) (d a : BitVec 5) (imm : BitVec 32), (s.core c).dispatching = true →
    let x := (s.core c).reg a
    let y : W64 := BitVec.ofInt 64 imm.toInt
    exec (.addi c d a imm) s = .next (writesReg s c d (x + y)) ∧
    exec (.muli c d a imm) s = .next (writesReg s c d (x * y)) ∧
    exec (.andi c d a imm) s = .next (writesReg s c d (x &&& y)) ∧
    exec (.ori c d a imm) s = .next (writesReg s c d (x ||| y)) ∧
    exec (.xori c d a imm) s = .next (writesReg s c d (x ^^^ y)) ∧
    exec (.shli c d a imm) s = .next (writesReg s c d (x <<< (y.toNat % 64))) ∧
    exec (.shri c d a imm) s = .next (writesReg s c d (x >>> (y.toNat % 64))) ∧
    exec (.sari c d a imm) s = .next (writesReg s c d (x.sshiftRight (y.toNat % 64))) ∧
    exec (.mini c d a imm) s = .next (writesReg s c d (if x.toInt ≤ y.toInt then x else y)) ∧
    exec (.maxi c d a imm) s = .next (writesReg s c d (if x.toInt ≤ y.toInt then y else x)) ∧
    exec (.slti c d a imm) s = .next (writesReg s c d (if x.toInt < y.toInt then 1 else 0)) ∧
    exec (.sltui c d a imm) s = .next (writesReg s c d (if x.toNat < y.toNat then 1 else 0)))

/-- LIL, LIH, NOP, CSRR and CSRW (R107, Tables 4.4, 4.5, 15.3): LIH keeps bits [47:0] and fails with a nonzero reserved bit; a CSRW of
a read-only or unassigned CSR fails; poison_seen is W1C. -/
def Obligations.ConstantsAndCsrs : Prop :=
  ∀ (s : State) (c : CoreId) (d a : BitVec 5) (imm : BitVec 48) (csr : BitVec 12), (s.core c).dispatching = true →
    let k := s.core c
    let v := k.reg a
    exec (.nop c) s = .next (goesTo s c (k.pc + 1)) ∧
    exec (.lil c d imm) s = .next (writesReg s c d (BitVec.ofInt 64 imm.toInt)) ∧
    (imm.toNat < 2 ^ 16 →
      exec (.lih c d imm) s = .next (writesReg s c d (BitVec.ofNat 64 (imm.toNat * 2 ^ 48 + (k.reg d).toNat % 2 ^ 48)))) ∧
    (2 ^ 16 ≤ imm.toNat → exec (.lih c d imm) s = .next (faults s c stIllegalInstr)) ∧
    exec (.csrr c d csr) s = .next (writesReg s c d (csrValue s c csr.toNat)) ∧
    csrValue s c 0x000 = BitVec.ofNat 64 c.val ∧ csrValue s c 0x018 = k.flags.setWidth 64 ∧
    csrValue s c 0x021 = k.waitLimit.setWidth 64 ∧ (0x064 ≤ csr.toNat → csrValue s c csr.toNat = 0) ∧
    exec (.csrw c a 0x004) s = .next (s.setCore c { k with poisonSeen := k.poisonSeen && !v.getLsbD 0, pc := k.pc + 1 }) ∧
    exec (.csrw c a 0x021) s = .next (s.setCore c { k with waitLimit := v.setWidth 32, pc := k.pc + 1 }) ∧
    (v.toNat % 8 ≤ 2 → exec (.csrw c a 0x020) s = .next (s.setCore c { k with coreMode := v.setWidth 3, pc := k.pc + 1 })) ∧
    (2 < v.toNat % 8 → exec (.csrw c a 0x020) s = .next (faults s c stIllegalInstr)) ∧
    (csr ≠ 0x004 ∧ csr ≠ 0x020 ∧ csr ≠ 0x021 ∧ csr ≠ 0x022 → exec (.csrw c a csr) s = .next (faults s c stIllegalInstr))

/-- Branches, jumps, calls and returns (R106, Table 4.4): a transfer within the program goes to its target, a branch not taken to the next
instruction, and a target outside the program fails with ST_PC_RANGE with no other effect; an LDS or STS whose offset or displacement is no
multiple of its width fails with ST_BUF_ALIGN. The program counter is an instruction index. -/
def Obligations.TransfersOfControl : Prop :=
  ∀ (s : State) (c : CoreId) (a b : BitVec 5) (off : BitVec 24), (s.core c).dispatching = true →
    let k := s.core c
    let x := k.reg a
    let y := k.reg b
    let t := target s c off
    let next := goesTo s c (k.pc + 1)
    let jumps (st : State) : Prop :=
      (inProgram s c t → st = goesTo s c t.toNat) ∧ (¬ inProgram s c t → k.item.isSome = true → st = faults s c stPcRange)
    let taken (i : Instr) (p : Prop) : Prop := ∃ st, exec i s = .next st ∧ (p → jumps st) ∧ (¬ p → st = next)
    taken (.beq c a b off) (x = y) ∧ taken (.bne c a b off) (x ≠ y) ∧
    taken (.blt c a b off) (x.toInt < y.toInt) ∧ taken (.bge c a b off) (y.toInt ≤ x.toInt) ∧
    taken (.bltu c a b off) (x.toNat < y.toNat) ∧ taken (.bgeu c a b off) (y.toNat ≤ x.toNat) ∧
    taken (.jmp c off) True ∧
    (inProgram s c t → exec (.call c off) s =
      .next (s.setCore c { k with pc := t.toNat, regs := k.regs.set 31 (BitVec.ofNat 64 (k.pc + 1)) })) ∧
    (¬ inProgram s c t → exec (.call c off) s = .next (faults s c stPcRange)) ∧
    (inProgram s c (k.reg 31).toNat → exec (.ret c) s = .next (goesTo s c (k.reg 31).toNat)) ∧
    (¬ inProgram s c (k.reg 31).toNat → exec (.ret c) s = .next (faults s c stPcRange)) ∧
    (∀ (n : BitVec 8) (disp : BitVec 16) (wide : Bool), let w := if wide then 8 else 4
      ¬(x.toNat % w = 0 ∧ disp.toNat % w = 0) → exec (.lds c b n a disp wide) s = .next (faults s c stBufAlign) ∧
        exec (.sts c b n a disp wide) s = .next (faults s c stBufAlign))

/-- The place of a word in a buffer. -/
def Sys2Proof.Claims.wordAt (b : Buffer) (o : W64) (disp : BitVec 16) : Nat := b.base + (o.toNat + disp.toNat)

/-- The address of a byte of a core's store among the stores of all cores. -/
def Sys2Proof.Claims.storeAt (c : CoreId) (a : Nat) : Nat := c.val * 0x400000 + a

/-- LDS and STS of a bound buffer with no instruction outstanding (R99, R100, R105, R106, Table 4.4): the load sign-extends a 4 B word; the
store changes the named bytes of the core's own store and no other byte of any store, and marks the buffer written; offset and
displacement have to be multiples of the width, the word has to lie in the buffer, and an EMPTY or read-only buffer fails.
LDS and STS of an unbound buffer, and of the pass-record area that buffer 255 names: 8 KiB from 0x003F_E000, read-only, always marked
COMPLETE (R98). -/
def Obligations.BufferAndPassRecordWords : Prop :=
  (∀ (s : State) (c : CoreId) (d off : BitVec 5) (n : BitVec 8) (disp : BitVec 16) (wide : Bool) (b : Buffer),
    s.memWf → (s.core c).dispatching = true → n ≠ 255 → (s.core c).buffer n.toNat = some b → (s.core c).outstanding = [] →
    let k := s.core c
    let o := k.reg off
    let w := if wide then 8 else 4
    let at_ := wordAt b o disp
    let fits := at_ + w ≤ b.base + b.size
    let aligned := o.toNat % w = 0 ∧ disp.toNat % w = 0
    (¬ aligned → exec (.lds c d n off disp wide) s = .next (faults s c stBufAlign) ∧
      exec (.sts c d n off disp wide) s = .next (faults s c stBufAlign)) ∧
    (aligned → b.st = .empty → exec (.lds c d n off disp wide) s = .next (faults s c stBufEmpty)) ∧
    (aligned → b.st ≠ .empty → ¬ fits → exec (.lds c d n off disp wide) s = .next (faults s c stBufBounds)) ∧
    (aligned → b.st ≠ .empty → fits → exec (.lds c d n off disp wide) s = .next (writesReg s c d
      (if wide then BitVec.ofNat 64 (leNat (s.csRead c at_ 8)) else (BitVec.ofNat 32 (leNat (s.csRead c at_ 4))).signExtend 64))) ∧
    (aligned → b.readOnly = true → exec (.sts c d n off disp wide) s = .next (faults s c stBufReadonly)) ∧
    (aligned → b.readOnly = false → ¬ fits → exec (.sts c d n off disp wide) s = .next (faults s c stBufBounds)) ∧
    (aligned → b.readOnly = false → fits → ∃ t, exec (.sts c d n off disp wide) s = .next t ∧
      (∀ x, memRead zeroByte t.coreStore x =
        if storeAt c at_ ≤ x ∧ x < storeAt c at_ + w then BitVec.ofNat 8 (bits (k.reg d) (8 * (x - storeAt c at_)) 8)
        else memRead zeroByte s.coreStore x) ∧
      t.core c = { k with pc := k.pc + 1, bufs := (t.core c).bufs, undef := cutRanges at_ w k.undef } ∧
      (∀ c' : CoreId, c' ≠ c → t.core c' = s.core c') ∧ t = { s with cores := t.cores, coreStore := t.coreStore })) ∧
  (∀ (s : State) (c : CoreId) (d off : BitVec 5) (n : BitVec 8) (disp : BitVec 16) (wide : Bool),
    (s.core c).dispatching = true → (s.core c).outstanding = [] →
    let w := if wide then 8 else 4
    let o := ((s.core c).reg off).toNat + disp.toNat
    ((s.core c).reg off).toNat % w = 0 → disp.toNat % w = 0 →
    (n ≠ 255 → (s.core c).buffer n.toNat = none → exec (.lds c d n off disp wide) s = .next (faults s c stBufUnbound) ∧
      exec (.sts c d n off disp wide) s = .next (faults s c stBufUnbound)) ∧
    exec (.sts c d 255 off disp wide) s = .next (faults s c stPassRecordWrite) ∧
    (o + w ≤ 0x2000 → exec (.lds c d 255 off disp wide) s = .next (writesReg s c d
      (if wide then BitVec.ofNat 64 (leNat (s.csRead c (0x3FE000 + o) 8))
       else (BitVec.ofNat 32 (leNat (s.csRead c (0x3FE000 + o) 4))).signExtend 64))) ∧
    (0x2000 < o + w → exec (.lds c d 255 off disp wide) s = .next (faults s c stBufBounds)))

/-! ## Dispatch into the issue queues (R94, R95, R100, R108, R110-R115) -/

/-- A core that dispatches, with room in a queue. -/
def Sys2Proof.Claims.room (s : State) (c : CoreId) (q : Queue) : Prop :=
  (s.core c).dispatching = true ∧ ((s.core c).queues.filter (fun e => e.queue == q)).length < 8

/-- The state with an instruction at the end of a queue, and dispatch one instruction on. -/
def Sys2Proof.Claims.queued (s : State) (c : CoreId) (q : Queue) (reads writes : List Nat) (op : Op) : State :=
  let k := s.core c
  s.setCore c { k with
    pc := k.pc + 1, ord := k.ord + 1,
    queues := k.queues ++ [{ queue := q, pc := k.pc, ord := k.ord, reads := reads, writes := writes, op := op }] }

/-- A bound buffer that an instruction may name: readable, or with a writer of it outstanding. -/
def Sys2Proof.Claims.readable (k : Core) (n : BitVec 8) (b : Buffer) : Prop :=
  k.buffer n.toNat = some b ∧ (b.st ≠ .empty ∨ k.writerPending k.ord n.toNat = true)

/-- A byte of a buffer. -/
def Sys2Proof.Claims.byteOf (b : Buffer) (o : W64) (len : Nat) : Rng := { buf := b.num, addr := b.base + o.toNat, len := len }

/-- The group settings FCFG, DCFG, OCFG and SCFG enter their group's queue with the operands that the registers hold at dispatch; with off
set they enter as a setting that is withdrawn, and a nonzero field beside it is illegal (R95, R108, R137, R143). -/
def Obligations.GroupSettingsAreQueued : Prop :=
  ∀ (s : State) (c : CoreId) (g : GroupId) (x y : BitVec 8) (bx by_ : Buffer) (rx ry rs : BitVec 5) (tag : BitVec 12) (n : BitVec 5)
    (bf : Bool), room s c (.g g) →
    let k := s.core c
    k.buffer x.toNat = some bx → k.buffer y.toNat = some by_ →
    exec (.fcfg c { group := g, actBuf := x, actOffReg := rx, expBuf := y, expOffReg := ry, strideReg := rs }) s =
      .next (queued s c (.g g) [] [] (.fcfg g { act := byteOf bx (k.reg rx) 0, exps := byteOf by_ (k.reg ry) 0, stride := (k.reg rs).toNat })) ∧
    (y ≠ 255 → exec (.dcfg c { group := g, outBuf := x, outOffReg := rx, ostrideReg := rs, biasBuf := y, biasOffReg := ry }) s =
      .next (queued s c (.g g) [] [] (.dcfg g { out := byteOf bx (k.reg rx) 0, stride := (k.reg rs).toNat,
                                                bias := some (byteOf by_ (k.reg ry) 0) }))) ∧
    exec (.dcfg c { group := g, outBuf := x, outOffReg := rx, ostrideReg := rs, biasBuf := 255, biasOffReg := ry }) s =
      .next (queued s c (.g g) [] [] (.dcfg g { out := byteOf bx (k.reg rx) 0, stride := (k.reg rs).toNat, bias := none })) ∧
    (readable k x bx → readable k y by_ → ∀ (sib : BitVec 4) (pair s8 : Bool),
      exec (.ocfg c { group := g, sib := sib, pair := pair, recBuf := x, recOffReg := rx, listBuf := y, listOffReg := ry, s8 := s8,
                      expBuf := 255, off := false }) s =
        .next (queued s c (.g g) [x.toNat, y.toNat] [] (.ocfg g (some {
          sib := ⟨sib.toNat, sib.isLt⟩, pair := pair, recRng := byteOf bx (k.reg rx) (recordLen 6), listRng := byteOf by_ (k.reg ry) 64,
          s8 := s8, tileExp := 0, expTable := none })))) ∧
    exec (.ocfg c { group := g, sib := 0, pair := false, recBuf := 0, recOffReg := 0, listBuf := 0, listOffReg := 0, s8 := false,
                    expBuf := 0, off := true }) s = .next (queued s c (.g g) [] [] (.ocfg g none)) ∧
    (4 ≤ n.toNat ∧ n.toNat ≤ 16 →
      exec (.scfg c { group := g, tag := tag, log2n := n, srcBuf := x, srcOffReg := rx, srcStrideReg := rs, srcBf16 := bf, refReg := ry,
                      off := false }) s =
        .next (queued s c (.g g) [] [] (.scfg g (some { tag := tag, log2n := n.toNat, src := byteOf bx (k.reg rx) 0,
                                                        stride := (k.reg rs).toNat, bf16 := bf, ref := k.reg ry })))) ∧
    (n.toNat < 4 ∨ 16 < n.toNat →
      exec (.scfg c { group := g, tag := tag, log2n := n, srcBuf := x, srcOffReg := rx, srcStrideReg := rs, srcBf16 := bf, refReg := ry,
                      off := false }) s = .next (faults s c stIllegalInstr)) ∧
    exec (.scfg c { group := g, tag := 0, log2n := 0, srcBuf := 0, srcOffReg := 0, srcStrideReg := 0, srcBf16 := false, refReg := 0,
                    off := true }) s = .next (queued s c (.g g) [] [] (.scfg g none)) ∧
    (tag ≠ 0 → exec (.scfg c { group := g, tag := tag, log2n := 0, srcBuf := 0, srcOffReg := 0, srcStrideReg := 0, srcBf16 := false,
                               refReg := 0, off := true }) s = .next (faults s c stIllegalInstr))

/-- The operands of a vector instruction: its destination, its first source unless it fills, its second when the operation takes one
and it is no scalar. -/
def Sys2Proof.Claims.vecOperands (k : Core) (f : VecF) (op : VecOp) (bd : Buffer) (ba bb : Option Buffer) : VecP :=
  let len := (k.reg f.lenReg).toNat
  let src := if f.type = 0 then 4 else 2
  let dst := if op = .cvt then (if f.type = 0 then 2 else 4) else if f.type = 1 then 2 else 4
  let out := if op = .sum ∨ op = .rmax ∨ op = .sumsq then 1 else len
  { op := op, type := f.type.toNat, bs := f.bs, scalar := (k.reg f.bReg).setWidth 32, len := len, cursor := 0,
    dst := byteOf bd (k.reg f.dReg) (dst * out), a := ba.map (fun b => byteOf b (k.reg f.aReg) (src * len)),
    b := bb.map (fun b => byteOf b (k.reg f.bReg) (src * len)) }

/-- TLOAD and PASS enter their group's queue (R94, R108, R109): a load of tiles at a stride as a reader of its records, a pass with the
group settings dispatched last before it; weight format 7, activation format 3 and initialiser 3 are illegal.
Every vector instruction of a legal type and length enters VEC as a reader of its sources and a writer of its destination; VFMA reads
its destination too, and with bs set the second source is the scalar register (R110, R111, Tables 4.7, 4.8). -/
def Obligations.TilesPassesAndVectorsAreQueued : Prop :=
  (∀ (s : State) (c : CoreId) (f : TloadF) (p : PassF) (b : Buffer) (fd : FeedCfg) (dr : DrainCfg),
    room s c (.g f.group) → p.group = f.group →
    let k := s.core c
    (f.wfmt ≠ 7 → f.expBuf = 255 → readable k f.srcBuf b →
      let stride := (k.reg f.strideReg).toNat % 65536 * 32
      exec (.tload c f) s = .next (queued s c (.g f.group) [f.srcBuf.toNat] [] (.tload {
        group := f.group, first := f.first.toNat, count := f.countM1.toNat + 1,
        src := byteOf b (k.reg f.offReg) (f.countM1.toNat * stride + recordLen f.wfmt.toNat), stride := stride, exps := none,
        wfmt := f.wfmt.toNat, outlier := none }))) ∧
    (f.wfmt = 7 → exec (.tload c f) s = .next (faults s c stIllegalInstr)) ∧
    (p.wfmt = 7 ∨ p.afmt = 3 ∨ p.init = 3 → exec (.pass c p) s = .next (faults s c stIllegalInstr)) ∧
    (p.wfmt ≠ 7 → p.afmt ≠ 3 → p.init ≠ 3 → p.shape ≠ 3 → k.queues = [] →
      (k.group p.group).feed = some fd → (k.group p.group).drain = some dr →
      let q : PassP := {
        group := p.group, shape := p.shape.toNat, wfmt := p.wfmt.toNat, s8 := p.s8, afmt := p.afmt.toNat, init := p.init.toNat,
        keep := p.keep, sound := p.sound, outlier := p.outlier, m := (k.reg p.mReg).toNat, kb := p.kb.toNat, n := (k.reg p.nReg).toNat,
        feed := some fd, drain := some dr, ocfg := (k.group p.group).outlier, scfg := (k.group p.group).sound, cursor := 0,
        done := ArithCnt.zero }
      let rw := passBuffers s c q
      (∀ n ∈ rw.1 ++ rw.2, (k.buffer n).isSome = true) → (∀ n ∈ rw.1, ∀ x, k.buffer n = some x → x.st ≠ .empty) →
      exec (.pass c p) s = .next (queued s c (.g p.group) rw.1 rw.2 (.pass q [])))) ∧
  (∀ (s : State) (c : CoreId) (f : VecF) (bd ba bb : Buffer), room s c .vec →
    let k := s.core c
    let len := (k.reg f.lenReg).toNat
    f.type ≠ 3 → 0 < len → len < 2 ^ 20 → k.buffer f.dBuf.toNat = some bd →
    let d := f.dBuf.toNat
    let second := if f.bs then none else some bb
    let bs := if f.bs then [] else [f.bBuf.toNat]
    let one (op : VecOp) : Out := .next (queued s c .vec [f.aBuf.toNat] [d] (.vec (vecOperands k f op bd (some ba) none)))
    let two (op : VecOp) : Out := .next (queued s c .vec (f.aBuf.toNat :: bs) [d] (.vec (vecOperands k f op bd (some ba) second)))
    (readable k f.aBuf ba →
      exec (.vcopy c f) s = one .copy ∧ exec (.vexp2 c f) s = one .exp2 ∧ exec (.vrcp c f) s = one .rcp ∧
      exec (.vrsq c f) s = one .rsq ∧ exec (.vsum c f) s = one .sum ∧ exec (.vrmax c f) s = one .rmax ∧
      exec (.vsumsq c f) s = one .sumsq ∧ (f.type ≠ 2 → exec (.vcvt c f) s = one .cvt)) ∧
    (readable k f.aBuf ba → (f.bs = false → readable k f.bBuf bb) →
      exec (.vadd c f) s = two .add ∧ exec (.vsub c f) s = two .sub ∧ exec (.vmul c f) s = two .mul ∧
      exec (.vmax c f) s = two .max ∧ exec (.vmin c f) s = two .min ∧ exec (.vrot c f) s = two .rot ∧
      (readable k f.dBuf bd →
        exec (.vfma c f) s = .next (queued s c .vec ((f.aBuf.toNat :: bs) ++ [d]) [d] (.vec (vecOperands k f .fma bd (some ba) second))))) ∧
    (f.bs = true → exec (.vfill c f) s = .next (queued s c .vec [] [d] (.vec (vecOperands k f .fill bd none none)))) ∧
    (f.bs = false → exec (.vfill c f) s = .next (faults s c stIllegalInstr)) ∧
    (f.type = 2 → exec (.vcvt c f) s = .next (faults s c stIllegalInstr)))

/-- Moves, near-bank and synchronisation instructions enter their queues (R94, R115, R118, R120, R121): the operands are the registers' at
dispatch, a load writes its buffer, a store reads it, a copy does both, a launch and an NBINV write theirs, a BUFSTATE waits for readers
and writers of its buffer, and a COLL both reads and writes its descriptor. -/
def Obligations.OtherInstructionsAreQueued : Prop :=
  ∀ (s : State) (c : CoreId) (f : MoveF) (m : McopyF) (l : NbLaunchF) (i : WorkItem) (b b2 : Buffer) (r q : BitVec 5) (n : BitVec 8)
    (cnt : Fin 16) (mask : BitVec 13),
    (∀ x : Queue, x = .mov ∨ x = .nb ∨ x = .syn ∨ x = .col → room s c x) → (s.core c).item = some i →
    let k := s.core c
    let len := (k.reg f.lenReg).toNat
    let move (op : MoveOp) (size : Nat) : MoveP := {
      op := op, store := byteOf b (k.reg f.offReg) size, other := none, remote := k.reg f.addrReg, len := len, sfmt := f.sfmt.toNat,
      dfmt := f.dfmt.toNat, sr := f.sr, aux := (k.reg f.auxReg).setWidth 32, s8 := f.s8, background := f.tclass == 1, cursor := 0 }
    (f.auxReg = 0 → fmtListed f.sfmt.toNat = true → fmtListed f.dfmt.toNat = true → f.tclass.toNat < 2 → 0 < len →
      (k.buffer f.buf.toNat = some b → exec (.mload c f) s =
        .next (queued s c .mov [] [f.buf.toNat] (.move (move .load (fmtSize f.dfmt.toNat f.s8 len))))) ∧
      (readable k f.buf b → exec (.mstore c f) s =
        .next (queued s c .mov [f.buf.toNat] [] (.move (move .store (fmtSize f.sfmt.toNat f.s8 len)))))) ∧
    (2 ≤ f.tclass.toNat → exec (.mload c f) s = .next (faults s c stIllegalInstr) ∧ exec (.mstore c f) s = .next (faults s c stIllegalInstr)) ∧
    (m.auxReg = 0 → fmtListed m.sfmt.toNat = true → fmtListed m.dfmt.toNat = true → 0 < (k.reg m.lenReg).toNat →
      k.buffer m.dBuf.toNat = some b → readable k m.sBuf b2 →
      let len := (k.reg m.lenReg).toNat
      exec (.mcopy c m) s = .next (queued s c .mov [m.sBuf.toNat] [m.dBuf.toNat] (.move {
        op := .copy, store := byteOf b (k.reg m.dReg) (fmtSize m.dfmt.toNat m.s8 len),
        other := some (byteOf b2 (k.reg m.sReg) (fmtSize m.sfmt.toNat m.s8 len)), remote := 0, len := len, sfmt := m.sfmt.toNat,
        dfmt := m.dfmt.toNat, sr := m.sr, aux := (k.reg m.auxReg).setWidth 32, s8 := m.s8, background := false, cursor := 0 }))) ∧
    (l.tclass.toNat < 2 → k.buffer l.stBuf.toNat = some b → exec (.nblaunch c l) s = .next (queued s c .nb [] [l.stBuf.toNat] (.nblaunch {
      core := c, tgt := k.reg l.tgtReg, target := Fin.ofNat 512 (k.reg l.tgtReg).toNat, st := byteOf b 0 512, mask := k.reg l.maskReg,
      prog := k.reg l.progReg, arg := k.reg l.argReg, classB := l.classB, fixed := l.fixed, background := l.tclass == 1,
      ctx := i.context, part := i.partition, workItem := i.workItem }))) ∧
    (2 ≤ l.tclass.toNat → exec (.nblaunch c l) s = .next (faults s c stIllegalInstr)) ∧
    exec (.nbflush c r q) s = .next (queued s c .nb [] [] (.nbflush (k.reg r) (k.reg q))) ∧
    (k.buffer n.toNat = some b → exec (.nbinv c n) s = .next (queued s c .nb [] [n.toNat] (.nbinv n.toNat)) ∧
      exec (.bufstate c n 0) s = .next (queued s c .syn [n.toNat] [n.toNat] (.bufstate n.toNat .empty)) ∧
      exec (.bufstate c n 1) s = .next (queued s c .syn [n.toNat] [n.toNat] (.bufstate n.toNat .complete))) ∧
    exec (.bufstate c n 2) s = .next (faults s c stIllegalInstr) ∧ exec (.bufstate c n 3) s = .next (faults s c stIllegalInstr) ∧
    exec (.cntadd c cnt r mask) s = .next (queued s c .syn [] [] (.cntadd cnt ((k.reg r).setWidth 32) mask)) ∧
    (semFails s i.partition (k.reg r) = none →
      exec (.semadd c r q) s = .next (queued s c .syn [] [] (.semadd (k.reg r).toNat ((k.reg q).setWidth 32)))) ∧
    (readable k n b → exec (.coll c n r) s = .next (queued s c .col [n.toNat] [n.toNat] (.coll (byteOf b (k.reg r) 256))))

/-- An instruction that names an unbound buffer, or reads an EMPTY one that nothing outstanding writes, fails at dispatch; one whose queue
holds eight stalls dispatch and takes its place later (R94, R98, R100). -/
def Obligations.DispatchFailsOrStalls : Prop :=
  ∀ (s : State) (c : CoreId) (n : BitVec 8) (f : VecF) (v : MoveF) (b : Buffer) (r : BitVec 5), (s.core c).dispatching = true →
    let k := s.core c
    (k.buffer n.toNat = none →
      exec (.fcfg c { group := 0, actBuf := n, actOffReg := r, expBuf := n, expOffReg := r, strideReg := r }) s = .next (faults s c stBufUnbound) ∧
      exec (.dcfg c { group := 0, outBuf := n, outOffReg := r, ostrideReg := r, biasBuf := 255, biasOffReg := r }) s =
        .next (faults s c stBufUnbound) ∧
      exec (.nbinv c n) s = .next (faults s c stBufUnbound) ∧ exec (.bufstate c n 0) s = .next (faults s c stBufUnbound) ∧
      exec (.coll c n r) s = .next (faults s c stBufUnbound)) ∧
    (k.buffer f.aBuf.toNat = some b → b.st = .empty → k.outstanding = [] → f.type = 0 → f.bs = true →
      0 < (k.reg f.lenReg).toNat → (k.reg f.lenReg).toNat < 2 ^ 20 → (k.buffer f.dBuf.toNat).isSome = true →
      exec (.vadd c f) s = .next (faults s c stBufEmpty)) ∧
    (k.buffer v.buf.toNat = some b → b.st = .empty → k.outstanding = [] → v.sfmt = 0 → v.dfmt = 0 → v.auxReg = 0 → v.tclass = 0 →
      0 < (k.reg v.lenReg).toNat → exec (.mstore c v) s = .next (faults s c stBufEmpty)) ∧
    (8 ≤ (k.queues.filter (fun e => e.queue == .nb)).length →
      exec (.nbflush c r r) s = .next (s.setCore c { k with
        pc := k.pc + 1, ord := k.ord + 1,
        stalled := some { queue := .nb, pc := k.pc, ord := k.ord, reads := [], writes := [], op := .nbflush (k.reg r) (k.reg r) } }))

/-! ## Synchronisation, waits and the end of a work item (R118-R125, R128, R129, R408, R409) -/

/-- FLAGSET, FLAGCLR, FLAGWAIT, CNTWAIT and FENCE (R121): the low 32 bits of the register; a wait that already holds falls through, one
that does not stops dispatch where it stands.
SEMWAIT, its satisfaction, SEMRD and NBPOLL (R119-R121, R248): a semaphore of the partition's range in a tower that is not fenced; the
condition compares signed 32-bit values, and with consume the value is subtracted in the same step; NBPOLL reads the word that the slice
controller last read. -/
def Obligations.FlagsSemaphoresAndPolls : Prop :=
  (∀ (s : State) (c : CoreId) (r : BitVec 5) (cnt : Fin 16) (mask : BitVec 13) (all : Bool), (s.core c).dispatching = true →
    let k := s.core c
    let v : W32 := (k.reg r).setWidth 32
    let busy : Prop := ∃ e ∈ k.outstanding, e.ord < k.ord ∧ mask.getLsbD (queueIdx e.queue) = true
    let flagged : Prop := if all then k.flags &&& v = v else k.flags &&& v ≠ 0
    let counted : Prop := v.toInt ≤ (k.counters.getD cnt.val 0).toInt
    exec (.flagset c r) s = .next (s.setCore c { k with flags := k.flags ||| v, pc := k.pc + 1 }) ∧
    exec (.flagclr c r) s = .next (s.setCore c { k with flags := k.flags &&& ~~~v, pc := k.pc + 1 }) ∧
    (flagged → exec (.flagwait c r all) s = .next (s.setCore c { k with waitSince := s.now, pc := k.pc + 1 })) ∧
    (¬ flagged → exec (.flagwait c r all) s = .next (s.setCore c { k with wait := .flagwait v all, waitSince := s.now })) ∧
    (counted → exec (.cntwait c cnt r) s = .next (goesTo s c (k.pc + 1))) ∧
    (¬ counted → exec (.cntwait c cnt r) s = .next (s.setCore c { k with wait := .cntwait cnt v })) ∧
    (¬ busy → exec (.fence c mask) s = .next (goesTo s c (k.pc + 1))) ∧
    (busy → exec (.fence c mask) s = .next (s.setCore c { k with wait := .fence mask }))) ∧
  (∀ (s : State) (c : CoreId) (d a b : BitVec 5) (u : UnitId) (i : WorkItem) (consume : Bool), (s.core c).item = some i →
    let k := s.core c
    let n := (k.reg a).toNat
    let v : W32 := (k.reg b).setWidth 32
    let p := s.part i.partition
    let named : Prop := n < 2 ^ 15 ∧ p.semFirst ≤ n % 4096 ∧ n % 4096 < p.semFirst + p.semCount
    let taken (x : Nat) (w : W32) : State := if consume then s.setSem x (s.sem x - w) else s
    (k.dispatching = true → ¬ named →
      exec (.semrd c d a) s = .next (faults s c stSemRange) ∧ exec (.semwait c a b consume) s = .next (faults s c stSemRange) ∧
      exec (.semadd c a b) s = .next (faults s c stSemRange)) ∧
    (k.dispatching = true → named → n / 4096 ∈ s.fencedTowers →
      exec (.semrd c d a) s = .next (faults s c stSemFenced) ∧ exec (.semwait c a b consume) s = .next (faults s c stSemFenced)) ∧
    (k.dispatching = true → named → n / 4096 ∉ s.fencedTowers →
      exec (.semrd c d a) s = .next (writesReg s c d ((s.sem n).signExtend 64)) ∧
      (v.toInt ≤ (s.sem n).toInt → exec (.semwait c a b consume) s = .next (goesTo (taken n v) c (k.pc + 1))) ∧
      ((s.sem n).toInt < v.toInt → exec (.semwait c a b consume) s =
        .next (s.setCore c { k with wait := .semwait n v consume, waitSince := s.now }))) ∧
    (∀ (x : Nat) (w : W32), k.wait = .semwait x w consume → k.stalled = none → k.paused = false → k.mode = .run → w.toInt ≤ (s.sem x).toInt →
      exec (.semwaitSatisfied c) s = .next ((taken x w).setCore c { k with wait := .none, pc := k.pc + 1 })) ∧
    (∀ t : CoreId, k.dispatching = true → k.reg a = BitVec.ofNat 64 t.val → t.val ∈ p.cores →
      exec (.nbpoll c d a u) s = .next (writesReg s c d ((smGet (s.slice t).liveWords u.val).getD 0))) ∧
    (k.dispatching = true → n ∉ p.cores → exec (.nbpoll c d a u) s = .next (faults s c stNbTarget)))

/-- WAIT, its event, the wait limit, END and a word that is no instruction (R104, R123, R125, R129, R408-R411): WAIT and END act once
nothing is outstanding; END ends the work item with its status or the poison it met, and hands the outcome to the tower scheduler. -/
def Obligations.WaitsAndEnds : Prop :=
  ∀ (s : State) (c : CoreId) (a b : BitVec 5) (ev : BitVec 3) (w : W64) (i : WorkItem), (s.core c).item = some i →
    let k := s.core c
    let x := k.reg a
    let y := k.reg b
    let idle : Prop := k.inflight = [] ∧ k.queues = []
    (k.dispatching = true → exec (.illegalInstruction c w) s = .next (faults s c stIllegalInstr)) ∧
    (k.dispatching = true → 3 ≤ ev.toNat → exec (.wait c ev a b) s = .next (faults s c stIllegalInstr)) ∧
    (k.dispatching = true → ev = 0 ∨ ev = 2 → ¬ idle →
      exec (.wait c ev a b) s = .next (s.setCore c { k with wait := .drainWait ev.toNat x y })) ∧
    (k.dispatching = true → ev = 0 ∨ ev = 2 → idle → k.coreMode ≠ 2 ∨ k.saved.isSome = true →
      exec (.wait c ev a b) s = .next (s.setCore c { k with
        wait := .waiting ev.toNat x y, waitSince := s.now, waitTick := coreTime s c, modeSince := s.now, mode := if k.coreMode = 0 ∨ 2 < k.coreMode then .wait else .idle })) ∧
    (k.dispatching = true → ev = 0 ∨ ev = 2 → idle → k.coreMode = 2 → k.saved = none → ∃ t, exec (.wait c ev a b) s = .next t ∧
      (t.core c).mode = .retention ∧ (t.core c).wait = .waiting ev.toNat x y ∧ (t.core c).loopLocked = false ∧
      (t.core c).groups = k.groups.map Group.loseTiles ∧ (∀ c' : CoreId, c' ≠ c → t.core c' = s.core c') ∧
      t = { s with cores := t.cores, coreStore := t.coreStore, free := t.free }) ∧
    (∀ x y, k.wait = .waiting 0 x y → k.mode = .wait ∨ k.mode = .idle → k.paused = false →
      (k.flags &&& x.setWidth 32 ≠ 0 →
        exec (.waitEvent c) s = .next (s.setCore c { k with wait := .none, mode := .run, modeSince := s.now, pc := k.pc + 1 })) ∧
      (k.flags &&& x.setWidth 32 = 0 → exec (.waitEvent c) s = .next s)) ∧
    (∀ x y, k.wait = .waiting 0 x y ∨ k.wait = .flagwait (x.setWidth 32) true ∨ k.wait = .semwait x.toNat (y.setWidth 32) true →
      k.mode = .run ∨ k.mode = .wait ∨ k.mode = .idle →
      (k.waitLimit ≠ 0 → k.waitSince + k.waitLimit.toNat * 1000 ≤ s.now → exec (.waitLimitExpiry c) s =
        .next (s.setCore c { k with wait := .faulted stWaitTimeout k.pc, queues := [], stalled := none, mode := .run })) ∧
      (k.waitLimit = 0 → exec (.waitLimitExpiry c) s = .next s)) ∧
    (k.dispatching = true → ¬ idle → exec (.endItem c a) s = .next (s.setCore c { k with wait := .drainEnd x })) ∧
    (k.dispatching = true → idle → exec (.endItem c a) s =
      .next ({ s with sched := { s.sched with outcomes := s.sched.outcomes ++
          [outcome k c i (if x ≠ 0 then 0xF000 + BitVec.ofNat 16 (x.toNat % 4096) else if k.passPoison then stPassPoison
            else if k.poisonSeen || k.nbPoison then stDataPoison else stOk) 0xFFFFFFFF] } }.setCore c { k with
        item := none, lastCtx := some i.context, clash := [], clkLoop := true, modeSince := s.now,
        mode := if k.localQ.isEmpty && k.saved.isNone then .idle else .run }))

/-! ## Issue and completion (R61-R63, R75, R94, R99-R103, R111, R117, R118, R121, R122) -/

/-- QUEUE_ISSUE (R99, R100, R103, R108, R118, R120-R122): the ready head of a queue issues: a group setting is in force, a semaphore or
counter takes its sum, NBINV and BUFSTATE mark their buffer unless a later writer has completed, a vector or move instruction whose
checks pass is in flight. A head that is not ready leaves everything but a stall counter; one that reads an EMPTY buffer fails. -/
def Obligations.QueueHeadsIssue : Prop :=
  ∀ (s : State) (c : CoreId) (q : Queue) (e : Entry), quiet (s.core c) → ((s.core c).queues.filter (fun x => x.queue == q)).head? = some e →
    let k := s.core c
    let left : Core := { k with queues := k.queues.erase e }
    let gone (k' : Core) : Out := .next (s.setCore c k')
    let marked (n : Nat) (st : BufState) : List Buffer :=
      k.bufs.map (fun b => if b.num = n ∧ b.written ≤ e.ord then { b with st := st, set := Nat.max b.set (e.ord + 1) } else b)
    let flies : Core := { left with clash := k.clash ++ k.newClashes e, inflight := k.inflight ++ [e] }
    (k.ready e = false → ∃ t, exec (.queueIssue c q) s = .next t ∧ t = { s.setCore c { k with stalls := (t.core c).stalls } with free := s.free + 1 } ∧
      ∀ j < 13, j ≠ queueIdx q → (t.core c).stalls.getD j 0 = k.stalls.getD j 0) ∧
    (k.ready e = true → (∀ n ∈ e.reads, ∀ b, k.buffer n = some b → b.st ≠ .empty) →
      (∀ g cfg, e.op = .fcfg g cfg → exec (.queueIssue c q) s = gone { left with groups := k.groups.modify g.val (fun x => { x with feed := some cfg }) }) ∧
      (∀ g cfg, e.op = .dcfg g cfg → exec (.queueIssue c q) s = gone { left with groups := k.groups.modify g.val (fun x => { x with drain := some cfg }) }) ∧
      (∀ g cfg, e.op = .scfg g cfg → exec (.queueIssue c q) s = gone { left with groups := k.groups.modify g.val (fun x => { x with sound := cfg }) }) ∧
      (∀ g, e.op = .ocfg g none → exec (.queueIssue c q) s = gone { left with groups := k.groups.modify g.val (fun x => { x with outlier := none }) }) ∧
      (∀ n, e.op = .nbinv n → exec (.queueIssue c q) s = gone { left with bufs := marked n .empty }) ∧
      (∀ n st, e.op = .bufstate n st → exec (.queueIssue c q) s = gone { left with bufs := marked n st }) ∧
      (∀ n v, e.op = .semadd n v → k.releases e = true → n / 4096 ∉ s.fencedTowers →
        exec (.queueIssue c q) s = .next ((s.setSem n (s.sem n + v)).setCore c left)) ∧
      (∀ n v m, e.op = .cntadd n v m → k.busyIn e.ord m = false →
        exec (.queueIssue c q) s = gone { left with counters := k.counters.modify n.val (· + v) }) ∧
      (∀ p, e.op = .vec p → (k.inflight.filter (fun x => x.queue == .vec)).length < 2 → vecFails k p = none →
        exec (.queueIssue c q) s = gone flies) ∧
      (∀ p, e.op = .move p → moveReady k p = true → moveFails s c k.partOf p = none → exec (.queueIssue c q) s = gone flies) ∧
      (∀ p, e.op = .tload p → loadReady k p = true → loadFails k p = none →
        exec (.queueIssue c q) s = gone { flies with groups := k.groups.modify p.group.val (fun x => { x with loading := some p }) })) ∧
    (k.ready e = true → (∃ n ∈ e.reads, ∃ b, k.buffer n = some b ∧ b.st = .empty) → (∀ p m, e.op = .vec p ∨ e.op = .move m →
      exec (.queueIssue c q) s = gone { k with wait := .faulted stBufEmpty e.pc, queues := [], stalled := none })) ∧
    (∀ q', (k.queues.filter (fun x => x.queue == q')) = [] → exec (.queueIssue c q') s = .next s)

/-- TLOAD_COMPLETE (R61, R63): the shadows of the named arrays hold the records, every other shadow and the active tiles stay.
PASS_COMPLETE of a pass without K-blocks and with the initialiser +0 (R75): every element of its output tile is +0, no other byte of
core store changes, and the pass leaves the core. -/
def Obligations.TileLoadsAndPassesOfNoBlocks : Prop :=
  (∀ (s : State) (c : CoreId) (g : GroupId) (p : LoadP) (e : Entry) (b : Buffer), quiet (s.core c) →
    let k := s.core c
    (k.group g).loading = some p → p.outlier = none → p.exps = none → k.inflight = [e] → e.queue = .g g → e.op = .tload p → k.clash = [] →
    k.groups.length = 8 → (k.group g).shadow.length = 16 → k.buffer p.src.buf = some b →
    ∃ t, exec (.tloadComplete c g) s = .next t ∧
      (∀ i < p.count, p.first + i < 16 → ∃ x, ((t.core c).group g).shadow.getD (p.first + i) none = some x ∧
        x.addr = p.src.addr + i * p.stride ∧ x.bytes = s.csRead c x.addr (recordLen p.wfmt) ∧ x.wfmt = p.wfmt ∧ x.s8 = false ∧
        x.poisoned = (b.st == .poisoned)) ∧
      (∀ a, a < p.first ∨ p.first + p.count ≤ a → ((t.core c).group g).shadow.getD a none = (k.group g).shadow.getD a none) ∧
      t = s.setCore c { k with
        inflight := [], groups := k.groups.modify g.val (fun x => { x with loading := none, shadow := ((t.core c).group g).shadow }) }) ∧
  (∀ (s : State) (c : CoreId) (e : Entry) (p : PassP) (tiles : List (Option Tile)) (d : DrainCfg) (b : Buffer), s.memWf → quiet (s.core c) →
    let k := s.core c
    k.inflight = [e] → e.queue = .g p.group → e.op = .pass p tiles → (k.group p.group).run = none → k.clash = [] → k.undef = [] →
    k.sampler.sample = none → p.shape < 3 → p.kb = 0 → p.init = 0 → p.cursor = 0 → p.outlier = false → p.feed = none → p.drain = some d →
    p.n ≤ d.stride → k.bufs = [b] → b.num = d.out.buf → b.st = .empty → b.set ≤ e.ord →
    ∃ t, exec (.passComplete c p.group) s = .next t ∧
      (∀ x, memRead zeroByte t.coreStore x =
        if ∃ i < p.m, ∃ j < 4 * p.n, x = storeAt c (d.out.addr + 4 * (i * d.stride) + j) then 0 else memRead zeroByte s.coreStore x) ∧
      (t.core c).inflight = [] ∧ (t.core c).bufs.map (·.st) = [.complete] ∧ (t.core c).regs = k.regs ∧ (t.core c).groups = k.groups ∧
      (∀ c' : CoreId, c' ≠ c → t.core c' = s.core c') ∧ t = { s with cores := t.cores, coreStore := t.coreStore, free := t.free })

/-- VECTOR_COMPLETE of FP32 element-wise instructions and a maximum (R110, R111, Table 4.8): the destination's bytes are the results, no
other byte of core store changes, and the EMPTY destination becomes COMPLETE.
MOVE_COMPLETE of a raw copy within core store (R114, R117): the destination's bytes are the source's as they stood, no other byte of
core store changes, and the destination becomes COMPLETE, or POISONED when the source is. -/
def Obligations.VectorResultsAndCopies : Prop :=
  (∀ (s : State) (c : CoreId) (e : Entry) (p : VecP) (a b : Rng) (d : Buffer), s.memWf → quiet (s.core c) →
    let k := s.core c
    k.inflight = [e] → e.queue = .vec → e.op = .vec p → k.clash = [] → k.undef = [] → p.type = 0 → p.cursor = 0 → 0 < p.len →
    p.a = some a → p.b = some b → k.bufs = [d] → d.num = p.dst.buf → d.st = .empty → d.set ≤ e.ord →
    let x (i : Nat) := csF32 s c (a.addr + 4 * i)
    let y (i : Nat) := csF32 s c (b.addr + 4 * i)
    let z (i : Nat) := csF32 s c (p.dst.addr + 4 * i)
    let writes (bs : List Byte) : Prop := ∃ t, exec (.vectorComplete c) s = .next t ∧
      overwrites zeroByte s.coreStore t.coreStore (storeAt c p.dst.addr) bs ∧
      t = { s.setCore c { k with inflight := [], bufs := [{ d with st := .complete, written := Nat.max d.written (e.ord + 1) }] } with coreStore := t.coreStore }
    let each (f : Nat → W32) : Prop := writes ((List.range p.len).flatMap (fun i => natLe 4 (f i).toNat))
    (p.op = .add → each (fun i => fadd (x i) (y i))) ∧ (p.op = .sub → each (fun i => fsub (x i) (y i))) ∧
    (p.op = .mul → each (fun i => fmul (x i) (y i))) ∧ (p.op = .fma → each (fun i => ffma (x i) (y i) (z i))) ∧
    (p.op = .max → each (fun i => fmax (x i) (y i))) ∧ (p.op = .min → each (fun i => fmin (x i) (y i))) ∧
    (p.op = .copy → each x) ∧
    (p.op = .rmax → writes (natLe 4 (((List.range p.len).drop 1).foldl (fun m i => fmax m (x i)) (x 0)).toNat))) ∧
  (∀ (s : State) (c : CoreId) (e : Entry) (p : MoveP) (o : Rng) (d src : Buffer) (i : WorkItem), s.memWf → quiet (s.core c) →
    let k := s.core c
    k.item = some i → k.inflight = [e] → e.queue = .mov → e.op = .move p → e.reads = [src.num] → k.clash = [] → k.undef = [] →
    p.op = .copy → p.other = some o → p.sfmt = 0 → p.dfmt = 0 → p.cursor = 0 → 0 < p.len → o.len = p.len →
    k.bufs = [d, src] → d.num = p.store.buf → src.num ≠ d.num → 0 < src.num ∧ src.num < 255 → d.st = .empty → d.set ≤ e.ord →
    ∃ t, exec (.moveComplete c 0 false) s = .next t ∧
      overwrites zeroByte s.coreStore t.coreStore (storeAt c p.store.addr) (s.csRead c o.addr p.len) ∧
      (t.core c).bufs = [{ d with st := if src.st = .poisoned then .poisoned else .complete, written := Nat.max d.written (e.ord + 1) }, src] ∧
      (t.core c).inflight = [] ∧ (t.core c).satMov = k.satMov ∧ (∀ c' : CoreId, c' ≠ c → t.core c' = s.core c') ∧
      t = { s.setCore c (t.core c) with coreStore := t.coreStore, free := s.free + p.len })

/-! ## Work items on a core (R57, R79-R92, R128-R133, R145, R150, R154, R309, R405-R413) -/

/-- A work item without arguments and bindings, of the context that ran last on its core. -/
def Sys2Proof.Claims.plainItem (k : Core) (i : WorkItem) : Prop :=
  i.bindCount = 0 ∧ i.argLen = 0 ∧ k.lastCtx = some i.context ∧ i.entry.toNat < i.progLen.toNat

/-- WORK_ITEM_START, WORK_ITEM_FAULT and WORK_ITEM_END (R128-R132, R390): the next item of the local queue starts at its entry with every
register, flag, counter and stall count 0, no buffer bound and its argument area zero; a failed item ends with its status and pc once
nothing but collectives is in flight; the scheduler takes the oldest outcome of its tower and writes the record of its descriptor.
PREEMPT_REQUEST, WORK_ITEM_RESUME and THERMAL_RELEASE (R79-R83, R133): a pre-empted item leaves the core with its program counter,
registers, flags, counters and bindings saved, and the resumed one has them back. -/
def Obligations.WorkItemsRunAndAreKept : Prop :=
  (∀ (s : State) (c : CoreId) (t : TowerId) (i : WorkItem) (rest : List WorkItem) (o : WorkOutcome) (st : BitVec 16) (pc : Nat), s.memWf →
    let k := s.core c
    (plainItem k i → k.item = none → k.localQ = i :: rest → k.saved = none → k.undef = [] → k.fenced = false → k.emergency = false →
      k.fastStopped = false → k.mode = .run ∨ k.mode = .idle →
      ∃ t, exec (.workItemStart c) s = .next t ∧
        overwrites zeroByte s.coreStore t.coreStore (storeAt c 0x3FB800) (List.replicate 0x400 0) ∧
        t = { s.setCore c { k with
          item := some i, localQ := rest, slot := 0, pc := i.entry.toNat, bufs := [], regs := List.replicate 32 0, queues := [], stalled := none,
          inflight := [], clash := [], wait := .none, stalls := List.replicate 13 0, flags := 0, counters := List.replicate 16 0,
          poisonSeen := false, passPoison := false, nbPoison := false, waitLimit := i.waitLimit, clkLoop := true,
          groups := k.groups.map Group.fresh, arith := List.replicate 8 ArithCnt.zero, satMov := 0, infMov := 0, sndTaken := 0,
          sndSkipped := 0, preemptPending := false, mode := .run, modeSince := s.now } with coreStore := t.coreStore }) ∧
    (k.item = some i → k.wait = .faulted st pc → (∀ e ∈ k.inflight, e.queue = .col) →
      exec (.workItemFault c) s = .next (endItem s c st pc)) ∧
    ((∃ e ∈ k.inflight, e.queue ≠ .col) → exec (.workItemFault c) s = .next s) ∧
    (∀ x : Ctx, s.procUp (2 + t.val) = true → s.sched.outcomes = [o] → towerOf o.core = t → s.ctx? o.item.context = some x → x.soundSize = 0 →
      x.st = .open_ → o.item.pages = [] → o.item.tails = [] → s.tables = [] → o.item.stepPhase = none → o.item.peer = none →
      exec (.workItemEnd t) s = .next (({ s with sched := { s.sched with outcomes := [] } } : State).record o.item.context (o.item.seq, none)
        o.status o.item.tag o.item.workItem o.index o.core.val o.poison)) ∧
    (s.tsServes t.val = false → exec (.workItemEnd t) s = .next s)) ∧
  (∀ (s : State) (c : CoreId) (i : WorkItem) (v : Saved),
    let k := s.core c
    (k.item = some i → i.preemptible = true → k.saved = none → quiet k → k.inflight = [] → k.groups = List.replicate 8 Group.reset →
      k.sampler.sample = none → ∃ t w, exec (.preemptRequest c) s = .next t ∧ (t.core c).saved = some w ∧ (t.core c).item = none ∧
        w.item = i ∧ w.pc = k.pc ∧ w.regs = k.regs ∧ w.flags = k.flags ∧ w.counters = k.counters ∧ w.queues = k.queues ∧ w.bufs = k.bufs ∧
        w.wait = k.wait ∧ (t.core c).queues = [] ∧ (t.core c).bufs = [] ∧ (t.core c).localQ = k.localQ ∧
        (∀ c' : CoreId, c' ≠ c → t.core c' = s.core c') ∧ t = { s with cores := t.cores, coreStore := t.coreStore, free := t.free, err := t.err }) ∧
    (k.item = some i → i.preemptible = false ∨ k.saved.isSome = true → exec (.preemptRequest c) s = .next s) ∧
    (k.item = none → k.saved = some v → v.wait = .none → v.stalled = none → v.groups = [] → v.inflight = [] → k.emergency = false →
      k.fastStopped = false → k.fenced = false → k.mode = .run →
      exec (.workItemResume c) s = .next (s.setCore c { k with
        item := some v.item, saved := none, pc := v.pc, regs := v.regs, flags := v.flags, counters := v.counters, queues := v.queues,
        stalled := none, inflight := [], clash := v.clash, bufs := v.bufs, groups := [], arith := v.counts, satMov := v.satMov, infMov := v.infMov,
        sndTaken := v.sndTaken, sndSkipped := v.sndSkipped, poisonSeen := v.poisonSeen, passPoison := v.passPoison, nbPoison := v.nbPoison,
        stalls := v.stalls, waitLimit := v.waitLimit, wait := .none, waitSince := v.waitSince, waitTick := v.waitTick, slot := v.slot,
        modeSince := s.now, preemptPending := false, clkLoop := true })))

/-- Idle cores and clocks (R57, R309, R405-R413): a core that holds a pre-empted work item stays in mode 1 where mode 2 is requested; retention after ret_us in idle, off after off_ms in retention, waking on the internal
oscillator for a work item or an event, the switch to the loop that has locked, and a change of q within 4 to 16 and the limits in force. -/
def Obligations.IdleCoresSleepAndWake : Prop :=
  ∀ (s : State) (c : CoreId) (q : Fin 17) (i : WorkItem) (rest : List WorkItem),
    let k := s.core c
    let slept (t : State) : Prop := (∀ c' : CoreId, c' ≠ c → t.core c' = s.core c')
    (k.mode = .idle → k.item = none → k.saved = none → k.localQ = [] → s.pwr.retUs ≠ 0 → k.modeSince + s.pwr.retUs.toNat * 1000 ≤ s.now →
      ∃ t, exec (.idleRetentionTimer c) s = .next t ∧ (t.core c).mode = .retention ∧ (t.core c).modeSince = s.now ∧
        (t.core c).loopLocked = false ∧ (t.core c).regs = k.regs ∧ (t.core c).groups = k.groups.map Group.loseTiles ∧ slept t ∧
        t = { s with cores := t.cores, free := s.free + 1, procs := t.procs }) ∧
    (s.pwr.retUs = 0 ∨ k.mode = .run ∨ s.now < k.modeSince + s.pwr.retUs.toNat * 1000 → exec (.idleRetentionTimer c) s = .next s) ∧
    (k.saved.isSome = true → exec (.idleRetentionTimer c) s = .next s) ∧
    (k.saved.isSome = true → k.coreMode = 2 → k.item = some i → k.dispatching = true → k.inflight = [] → k.queues = [] →
      ∀ (ev : BitVec 3) (a b : BitVec 5), ev.toNat < 3 → (ev = 1 → semFails s i.partition (k.reg a) = none) →
        exec (.wait c ev a b) s = .next (s.setCore c { k with
          wait := .waiting ev.toNat (k.reg a) (k.reg b), waitSince := s.now, waitTick := coreTime s c, modeSince := s.now, mode := .idle })) ∧
    (k.mode = .retention → k.item = none → k.localQ = [] → s.pwr.offMs ≠ 0 → k.modeSince + s.pwr.offMs.toNat * 1000000 ≤ s.now →
      ∃ t, exec (.idleOffTimer c) s = .next t ∧ t = { s.setCore c { k with mode := .off, modeSince := s.now, undef := (t.core c).undef } with
        free := s.free + 1 }) ∧
    (s.pwr.offMs = 0 ∨ k.mode ≠ .retention → exec (.idleOffTimer c) s = .next s) ∧
    (k.mode = .retention ∨ k.mode = .off → k.item = none → k.wait = .none → k.localQ = i :: rest →
      ∃ t, exec (.coreWake c) s = .next t ∧ (t.core c).mode = .run ∧ (t.core c).onLoop = false ∧ (t.core c).loopLocked = false ∧
        (t.core c).modeSince = s.now ∧ (t.core c).localQ = k.localQ ∧ slept t ∧ t = { s with cores := t.cores, err := t.err }) ∧
    (k.mode = .run → exec (.coreWake c) s = .next s) ∧
    (k.onLoop = false → k.mode = .run → k.clkLoop = true → capCeiling s c ≤ supportedQ (s.stage (stageOf (towerOf c))).setpoint →
      ∃ t, exec (.clockSwitch c) s = .next t ∧ (t.core c).onLoop = true ∧ (t.core c).loopLocked = true ∧ (t.core c).q = k.q ∧ slept t ∧
        t = { s with cores := t.cores, err := t.err }) ∧
    (k.onLoop = false → k.mode = .run → k.clkLoop = false → exec (.clockSwitch c) s = .next (s.setCore c { k with loopLocked := true })) ∧
    (k.mode = .run → 4 ≤ q.val → ∃ t, exec (.rateChange c q) s = .next t ∧ (t.core c).q = Nat.min q.val (qLimit s c) ∧ slept t ∧
      t = { s with cores := t.cores, err := t.err }) ∧
    (q.val < 4 → exec (.rateChange c q) s = .next s) ∧
    (k.rateChanges ≠ 0 → k.lastRate = none →
      exec (.rateRecordEmit c) s = .next ((s.setCore c { k with rateChanges := 0, lastRate := some s.now }).log
        { code := Config.syncCode 3, severity := 0 } (srcCore c) 0 0 none
        [BitVec.ofNat 64 k.rateFirst, BitVec.ofNat 64 k.q, BitVec.ofNat 64 k.rateChanges]))

/-- ARRAY_FAULT and ACTIVE_PARITY_CHECK (R55, R84-R92, Table 3.10): the first fault of a run retries its passes and poisons the output, the
third fails the work item with ST_ARRAY_FAULT; a check that finds nothing changes nothing. -/
def Obligations.ArrayFaultsAreRetried : Prop :=
  ∀ (s : State) (c : CoreId) (g : GroupId) (a : Fin 16) (r : Run) (e : Entry) (p : PassP) (ts : List (Option Tile)) (y : Syndrome),
    let k := s.core c
    exec (.activeParityCheck c g a none) s = .next s ∧
    ((k.group g).run = none → exec (.arrayFault c g y) s = .next s) ∧
    (k.groups.length = 8 → (k.group g).run = some r → k.inflight = [e] → e.queue = .g g → e.op = .pass p ts → k.sampler.sample = none → r.held = false →
      1 ≤ y.check.toNat → y.check.toNat ≤ 4 → k.wait = .none → k.emergency = false → k.paused = false →
      (r.retries = 0 → (s.err.srcBuf (srcCore c)).buf.length < 64 → ∃ t, exec (.arrayFault c g y) s = .next t ∧
        ((t.core c).group g).run = some { r with retries := 1, syndromes := r.syndromes ++ [y], replay := r.passes, retrying := true } ∧
        (t.core c).inflight = k.inflight ∧ (t.core c).wait = .none ∧ (∀ b ∈ (t.core c).bufs, ∃ b' ∈ k.bufs, b' = b ∨ b = { b' with st := .poisoned }) ∧
        (∃ rec, (t.err.srcBuf (srcCore c)).buf.getLast? = some rec ∧ rec.code = evArrayRetry.code) ∧ t = { s with cores := t.cores, err := t.err }) ∧
      (r.retries = 2 → ∃ t, exec (.arrayFault c g y) s = .next t ∧ (t.core c).wait = .faulted stArrayFault r.runPc ∧ (t.core c).inflight = [] ∧
        ((t.core c).group g).run = none ∧ t = { s with cores := t.cores })) ∧
    (∀ (row : Fin 32) (pl : Fin 8) (t : Tile), (k.group g).active.getD a.val none = some t → (k.group g).run = some r →
      exec (.activeParityCheck c g a (some (row, pl))) s =
        .next (faultRun s c g r { check := 1, pgroup := g, array := a, line := row, plane := pl }))

/-- Emergencies and soundings (R90, R143-R155): a thermal emergency saves the running item and its release lets cores go on; a captured
sample sends one record and is counted; a sampler fault discards it, a second within 1 s fences the sampler; the scheduler takes the
oldest record of its tower and drops that of a context that is gone; a scheduler without the context ignores an escalation. -/
def Obligations.SamplersAndEmergencies : Prop :=
  ∀ (s : State) (c : CoreId) (t : TowerId) (ns : Nat) (m : Sample) (r : SndRec) (rs : List SndRec) (x : CtxId) (tag : BitVec 12) (i : WorkItem),
    let k := s.core c
    (k.item = some i → quiet k → k.saved = none → k.inflight = [] → k.groups = List.replicate 8 Group.reset → k.sampler.sample = none → k.fenced = false →
      k.emergency = false → 452 ≤ prot s (.core c) → preemptBound k ≤ allowanceOf s c ns → ∃ t w, exec (.thermalEmergency c ns) s = .next t ∧ (t.core c).emergency = true ∧ (t.core c).item = none ∧
        (t.core c).saved = some w ∧ w.item = i ∧ w.pc = k.pc ∧ w.regs = k.regs ∧ (∀ c' : CoreId, c' ≠ c → t.core c' = s.core c')) ∧
    (k.emergency = true → k.fastStopped = false → k.groups = [] → k.wait = .none → k.stalled = none → predP s (.core c) < 420 →
      exec (.thermalRelease c) s = .next (s.setCore c { k with emergency := false, paused := false })) ∧
    (k.sampler.sample = none → exec (.sampleComplete c) s = .next s ∧ exec (.samplerFault c) s = .next s) ∧
    (k.sampler.sample = some m → m.captured = true → k.mode = .run → m.pass.afmt = 0 → (∀ q, m.pass.scfg = some q → q.ref = 0) →
      ∃ t, exec (.sampleComplete c) s = .next t ∧ (t.core c).sampler.sample = none ∧
        t.sched.sounding = s.sched.sounding ++ [soundingRec s c m (recompute m m.tiles) none] ∧
        t = { s with cores := t.cores, free := s.free + 6, err := t.err, sched := t.sched }) ∧
    (k.sampler.sample = some m → k.sampler.lastFault = none → exec (.samplerFault c) s =
      .next ((s.setCore c { k with sampler := { sample := none, lastFault := some s.now, fenced := k.sampler.fenced } }).log evSoundingFault
        (srcCore c) (locArray c m.group 0))) ∧
    (∀ at_, k.sampler.sample = some m → k.sampler.lastFault = some at_ → s.now ≤ at_ + 1000000000 → ∃ t, exec (.samplerFault c) s = .next t ∧
      (t.core c).sampler = { sample := none, lastFault := some s.now, fenced := true } ∧ t.isFenced 6 c.val 0 = true) ∧
    (s.procUp (2 + t.val) = true → s.sched.sounding = r :: rs → towerOf r.core = t → s.ctx? r.ctx = none →
      exec (.soundingRecord t) s = .next { s with sched := { s.sched with sounding := rs } }) ∧
    (s.procUp (2 + t.val) = false → exec (.soundingRecord t) s = .next s ∧ exec (.escalationSignal t x tag) s = .next s) ∧
    (∀ y : Ctx, s.procUp (2 + t.val) = true → s.ctx? x = some y → y.soundSize ≠ 0 → ∃ n st, exec (.escalationSignal t x tag) s = .next st ∧
      st.sched.levels.head? = some { tower := t, ctx := x, tag := tag, level := n } ∧ n < 4 ∧ st.sched.sounding = s.sched.sounding)

/-! ## Slice memory (chapters 06, 07) -/

/-- The row parity, column parity, parity word and stored check word of a block (R192): row i is bytes 2i and 2i + 1, bits XORed; K is the
parity word XORed with 0x5A5A_A5A5, so a block of all zeros or all ones reads as uncorrectable. -/
def Obligations.CheckWordIsTheGridParity : Prop :=
  ∀ d : BlockData,
    let x (i j : Nat) : Bool := d.getLsbD (16 * i + j)
    let line (f : Nat → Bool) : Bool := (List.range 16).foldl (fun p j => p ^^ f j) false
    (∀ i < 16, ∀ j < 16, x i j = (leNat ((natLe 32 d.toNat).drop (2 * i) |>.take 2)).testBit j) ∧
    (∀ i < 16, (parityWord d).getLsbD i = line (x i)) ∧ (∀ j < 16, (parityWord d).getLsbD (16 + j) = line (fun i => x i j)) ∧
    checkWord d = parityWord d ^^^ 0x5A5AA5A5 ∧
    syndrome 0 0 = 0x5A5AA5A5 ∧ syndrome (BitVec.allOnes 256) (BitVec.allOnes 32) = 0xA5A55A5A ∧
    decodeFull 0 0 = .uncorrectable ∧ decodeFull (BitVec.allOnes 256) (BitVec.allOnes 32) = .uncorrectable

/-- A block and its check word with one of the 288 bits inverted: data bits, then check bits. -/
def Sys2Proof.Claims.flip (b : Nat) (x : BlockData × W32) : BlockData × W32 :=
  if b < 256 then (x.1 ^^^ BitVec.ofNat 256 (2 ^ b), x.2) else (x.1, x.2 ^^^ BitVec.ofNat 32 (2 ^ (b - 256)))

/-- What the decoder makes of a block as its writer stored it with some bits inverted since. -/
def Sys2Proof.Claims.decodeFlipped (d : BlockData) (bs : List Nat) : Decoded :=
  let x := bs.foldr Claims.flip (d, checkWord d)
  decodeFull x.1 x.2

/-- What the full code makes of an intact, a poisoned and a damaged block (R193, R194, Tables 7.1, 7.2): every single error is corrected;
two data bits, a data bit with a foreign check bit and two check bits of a kind are detected; a data bit with a check bit of its own, a row
with a column check bit and three corners of a rectangle are miscorrected; the four corners of a rectangle go unseen. -/
def Obligations.FullCodeCoverage : Prop :=
  ∀ (d : BlockData) (i j i' j' : Fin 16) (b b' : Fin 256),
    let at_ (i j : Fin 16) : Nat := 16 * i.val + j.val
    let row (i : Fin 16) : Nat := 256 + i.val
    let col (j : Fin 16) : Nat := 272 + j.val
    decodeFlipped d [] = .clean ∧ decodeFull d (poisonWord d) = .poisoned ∧
    decodeFlipped d [b.val] = .dataBit b.val ∧ mended (d ^^^ BitVec.ofNat 256 (2 ^ b.val)) (.dataBit b.val) = d ∧
    decodeFlipped d [row i] = .rowCheck i.val ∧ decodeFlipped d [col j] = .colCheck j.val ∧
    (b ≠ b' → decodeFlipped d [b.val, b'.val] = .uncorrectable) ∧
    (i' ≠ i → decodeFlipped d [at_ i j, row i'] = .uncorrectable) ∧ (j' ≠ j → decodeFlipped d [at_ i j, col j'] = .uncorrectable) ∧
    (i ≠ i' → decodeFlipped d [row i, row i'] = .uncorrectable) ∧ (j ≠ j' → decodeFlipped d [col j, col j'] = .uncorrectable) ∧
    decodeFlipped d [at_ i j, row i] = .colCheck j.val ∧ decodeFlipped d [at_ i j, col j] = .rowCheck i.val ∧
    decodeFlipped d [row i, col j] = .dataBit (at_ i j) ∧
    (i ≠ i' → j ≠ j' → decodeFlipped d [at_ i j, at_ i j', at_ i' j] = .dataBit (at_ i' j')) ∧
    (i ≠ i' → j ≠ j' → decodeFlipped d [at_ i j, at_ i j', at_ i' j, at_ i' j'] = .clean)

/-- A channel that serves a block at once: not lost, holding nothing, no segment on the block's bank pair. -/
def Sys2Proof.Claims.serves (s : State) (c : CoreId) (a : Coord) : Prop :=
  (s.chan c a.ch).lost = false ∧ s.chanHolds c a.ch = false ∧ s.pairHeld c a = false

/-- The 36 stored bytes of a block: its data, then its check word. -/
def Sys2Proof.Claims.stored (d : BlockData) (k : W32) : List Byte := natLe 32 d.toNat ++ natLe 4 k.toNat

/-- CHANNEL_READ and CHANNEL_WRITE of full-code blocks (R158, R179, R180, R188, R193, R198): a clean block answers its data, a damaged one
is mended and written back, a poisoned one answers poison; a whole-block write stores data and fresh check word and no other byte; a
channel that holds its accesses queues them, a lost one answers poison and discards. -/
def Obligations.ChannelsReadAndWriteBlocks : Prop :=
  ∀ (s : State) (c : CoreId) (a : Coord) (data : BlockData) (mask : BitVec 32) (poison : Bool), s.memWf → (s.slice c).chans.length = 4 →
    let p := (s.slice c).place a
    let d := s.blkData c p
    let k := s.blkCheck c p
    let touched (f : Chan → Chan) : State := s.modChan c a.ch (fun x => f (x.openRow p s.now))
    (serves s c a → s.ptypeAt c a ≠ .activation → s.eddyAt c a = none →
      (decodeFull d k = .clean → exec (.channelRead c a) s = .next (touched (fun x => { x with lastRead := some (a, d, false) }))) ∧
      (decodeFull d k = .poisoned → exec (.channelRead c a) s = .next (touched (fun x => { x with lastRead := some (a, d, true) }))) ∧
      (∀ b, decodeFull d k = .dataBit b → (s.unit c (unitOf a)).wrote = [] → ∃ t, exec (.channelRead c a) s = .next t ∧
        (t.chan c a.ch).lastRead = some (a, d ^^^ BitVec.ofNat 256 (2 ^ b), false) ∧
        overwrites dramDefault s.dram t.dram (blkIndex c p * 36) (stored (d ^^^ BitVec.ofNat 256 (2 ^ b)) (checkWord (d ^^^ BitVec.ofNat 256 (2 ^ b)))) ∧
        t.cores = s.cores ∧ t.regions = s.regions)) ∧
    (serves s c a → s.ptypeAt c a ≠ .activation → s.eddyAt c a = none → s.pages = [] → (s.unit c (unitOf a)).wrote = [] →
      ∃ t, exec (.channelWrite c a data 0xFFFFFFFF poison) s = .next t ∧
        overwrites dramDefault s.dram t.dram (blkIndex c p * 36) (stored data (if poison then poisonWord data else checkWord data)) ∧
        t = { touched id with dram := t.dram }) ∧
    ((s.chan c a.ch).lost = false → s.chanHolds c a.ch = true → (s.chan c a.ch).heldQ.length < 256 →
      exec (.channelRead c a) s = .next (s.modChan c a.ch (fun x => { x with heldQ := x.heldQ ++ [.read a] })) ∧
      exec (.channelWrite c a data mask poison) s = .next (s.modChan c a.ch (fun x => { x with heldQ := x.heldQ ++ [.write a data mask poison] }))) ∧
    ((s.chan c a.ch).lost = true → exec (.channelWrite c a data mask poison) s = .next s ∧
      exec (.channelRead c a) s = .next (touched (fun x => { x with lastRead := some (a, d, true) })))

/-- EDDY_WRITE, EDDY_FLUSH, EDDY_AGE_TIMEOUT and the atomics (R173-R176): a narrow write of a full-code block merges into an entry and
leaves the banks; a full entry that is flushed is one block write; entries are flushed 2 µs old; an atomic answers the old value, takes
effect in the eddy, and a failed compare writes nothing. -/
def Obligations.EddiesMergeNarrowWrites : Prop :=
  ∀ (s : State) (c : CoreId) (a : Coord) (data : BlockData) (m : BitVec 32) (w : Fin 8) (v old new : W64) (e : EddyEntry), s.memWf →
    (s.slice c).chans.length = 4 → serves s c a → s.ptypeAt c a ≠ .activation → s.pages = [] → (s.unit c (unitOf a)).wrote = [] →
    let p := (s.slice c).place a
    let d := s.blkData c p
    let word : W64 := BitVec.ofNat 64 (bits d (32 * w.val) 32)
    let bytes : BitVec 32 := BitVec.ofNat 32 (15 * 2 ^ (4 * w.val))
    let entry (x : BlockData) (m : BitVec 32) : EddyEntry := { blk := blkIndex c a, data := mergeBytes 0 x m, mask := m, stamp := s.now }
    let adds (x : EddyEntry) (old : Option W64) : State := s.modChan c a.ch (fun k => { k with
      eddy := k.eddy ++ [x], lastRead := match old with | some v => some (a, v.setWidth 256, false) | none => k.lastRead })
    (s.eddyAt c a = none → m ≠ 0 → m ≠ 0xFFFFFFFF → (s.chan c a.ch).eddy.length < 16 →
      exec (.eddyWrite c a data m) s = .next (adds (entry data m) none)) ∧
    (s.eddyAt c a = some e → m ≠ 0 → m ≠ 0xFFFFFFFF → e.mask ||| m ≠ 0xFFFFFFFF →
      exec (.eddyWrite c a data m) s = .next (s.modChan c a.ch (fun k => { k with
        eddy := updWhere (fun y => y.blk == e.blk) (fun _ => { e with data := mergeBytes e.data data m, mask := e.mask ||| m }) k.eddy }))) ∧
    ((s.chan c a.ch).eddy = [e] → idxCoord e.blk = a → e.blk = blkIndex c a → e.mask = 0xFFFFFFFF → ∃ t, exec (.eddyFlush c a.ch 0) s = .next t ∧
      overwrites dramDefault s.dram t.dram (blkIndex c p * 36) (stored e.data (checkWord e.data)) ∧
      t = { s.modChan c a.ch (fun k => { k with eddy := [] }) with dram := t.dram } ∧
      (e.stamp + 2000 ≤ s.now → exec (.eddyAgeTimeout c a.ch) s = .next t) ∧
      (s.now < e.stamp + 2000 → exec (.eddyAgeTimeout c a.ch) s = .next s)) ∧
    (s.eddyAt c a = none → (s.chan c a.ch).eddy.length < 16 → decodeFull d (s.blkCheck c p) = .clean →
      exec (.atomicAdd c a w false v) s = .next (adds (entry (BitVec.ofNat 256 ((word + v).toNat % 2 ^ 32 * 2 ^ (32 * w.val))) bytes) (some word)) ∧
      (word = old &&& 0xFFFFFFFF →
        exec (.atomicCas c a w false old new) s = .next (adds (entry (BitVec.ofNat 256 (new.toNat % 2 ^ 32 * 2 ^ (32 * w.val))) bytes) (some word))) ∧
      (word ≠ old &&& 0xFFFFFFFF →
        exec (.atomicCas c a w false old new) s = .next (s.modChan c a.ch (fun k => { k with lastRead := some (a, word.setWidth 256, false) }))))

/-- Timers, refresh, bands, throttle steps and weirs (R160-R172): a row closes 64 ns after its last transaction; a refresh interval issues
what is owed; a band and a throttle step rise at once; a hold ends by the MP or after hold_us; a weir window starts its meters anew. -/
def Obligations.ChannelsFollowTimeAndHeat : Prop :=
  ∀ (s : State) (c : CoreId) (ch : ChanId) (h : Fin 2) (b : Fin 16) (l : LayerId) (t : Nat) (mp : Bool), (s.slice c).chans.length = 4 →
    (s.slice c).layers.length = 8 →
    let x := s.chan c ch
    let n := 16 * h.val + b.val
    let y := (s.slice c).layer l
    let set (f : Chan → Chan) : Out := .next (s.modChan c ch f)
    (smGet x.openSince n = some t → t + 64 ≤ s.now →
      exec (.rowCloseTimer c ch h b) s = set (fun x => { x with openRows := smErase x.openRows n, openSince := smErase x.openSince n })) ∧
    (smGet x.openSince n = some t → s.now < t + 64 → exec (.rowCloseTimer c ch h b) s = .next s) ∧
    (x.lost = false → (s.slice c).selfRefresh = false → (s.slice c).units = [] → exec (.refreshInterval c ch) s =
      set (fun x => { x with owed := 0, refreshRow := (x.refreshRow + Nat.min 8 (x.owed + 1)) % 4224, openRows := [], openSince := [] })) ∧
    (x.lost = true ∨ (s.slice c).selfRefresh = true → exec (.refreshInterval c ch) s = .next s) ∧
    (y.band < bandOf (hotter (layerTP s c l).1 (layerTP s c l).2) → (s.sensor (.layer c l)).st ≠ 2 → (s.slice c).units = [] → ∃ t,
      exec (.bandChange c l) s = .next t ∧ (t.slice c).layer l = { y with band := bandOf (hotter (layerTP s c l).1 (layerTP s c l).2), below := none } ∧
      (t.chan c (layerChan l)).band = chanBand (t.slice c) (layerChan l) ∧ t.cores = s.cores ∧ t.dram = s.dram) ∧
    (x.lost = false → s.mem.predict = true → (∀ k, floorsHeld (s.modChan c ch (fun y => { y with step := k, stepLow := none })) c = []) →
      let heat (f : Int × Int → Int) : Int := (chanLayers ch).foldl (fun acc l => hotter acc (f (layerTP s c l))) (-1000)
      let want := stepOf s.mem.t1.toNat (hotter (heat (·.1)) (heat (·.2)))
      x.step < want → exec (.throttleStep c ch) s = set (fun y => { y with step := want, stepLow := none })) ∧
    (x.holdSince = some t → (mp = true ∧ s.mpUp = true) ∨ t + s.mem.holdUs.toNat * 1000 ≤ s.now →
      exec (.protectedHoldEnd c ch mp) s = set (fun y => { y with holdSince := none })) ∧
    (x.holdSince = none → exec (.protectedHoldEnd c ch mp) s = .next s) ∧
    ((s.slice c).units = [] → exec (.weirWindow c) s = .next (s.modSlice c (fun k => { k with
      weirGrant := weirGrants s c, weirDemand := k.weirUse, weirUse := [], layers := k.layers.map (fun l => { l with meter := 0, bSuspended := false }) })))

/-- RETRAIN_TRIGGER and RETRAIN_COMPLETE (R178-R182): a trigger holds the channel and opens a recovery, a second one in the slice waits, the
fourth within 60 s leaves the channel untrainable; completion ends the hold, a failing connection takes its spare or leaves it untrainable. -/
def Obligations.RetrainsHoldAndRelease : Prop :=
  ∀ (s : State) (c : CoreId) (ch : ChanId) (r : Retrain) (n : Fin 308), (s.slice c).chans.length = 4 → (s.slice c).units = [] →
    hasRoom s (srcSlice c) →
    let x := s.chan c ch
    let recent := x.retrainTimes.filter (fun t => s.now < t + 60000000000)
    let set (f : Chan → Chan) : State := s.modChan c ch f
    let start : Out := exec (.retrainTrigger c ch .cmdParity) s
    (x.lost = false → x.untrainable = false → (s.slice c).selfRefresh = false → s.err.spans = [] → (∀ d, (s.chan c d).retrain = none) →
      (recent.length < 3 → start = .next ((set (fun x => { x with retrain := some { cause := .cmdParity, since := s.now }, retrainTimes := s.now :: recent })).logOpen
        memRetrainStart (srcSlice c) (locChan c ch) 0 none [2])) ∧
      (3 ≤ recent.length → start = .next ((set (fun x => { x with untrainable := true })).log memRetrainFail (srcSlice c) (locChan c ch) 0 none [1]))) ∧
    (x.lost = false → x.untrainable = false → (s.slice c).selfRefresh = false → x.retrain = none → x.retrainPending = [] →
      (∃ d, (s.chan c d).retrain.isSome = true) → start = .next (set (fun x => { x with retrainPending := [.cmdParity] }))) ∧
    (x.lost = true ∨ x.untrainable = true → start = .next s) ∧
    (x.retrain = none → exec (.retrainComplete c ch []) s = .next s) ∧
    (x.retrain = some r → x.heldQ = [] → (∀ d, (s.chan c d).retrainPending = []) → s.mem.ctEnable = false →
      (∃ t, exec (.retrainComplete c ch []) s = .next t ∧ (t.chan c ch).retrain = none ∧ (t.chan c ch).laneErr = [] ∧
        (t.chan c ch).trainTemp = chanTemp s c ch ∧ (t.chan c ch).untrainable = x.untrainable ∧ reports t (srcSlice c) memRetrainDone ∧
        t.dram = s.dram ∧ t.cores = s.cores) ∧
      (x.sparesData.length = 12 → n.val < 288 → 0 < x.sparesData.getD (n.val / 24) 0 → ∃ t, exec (.retrainComplete c ch [n]) s = .next t ∧
        (t.chan c ch).retrain = none ∧ (t.chan c ch).untrainable = x.untrainable ∧
        (t.chan c ch).sparesData = x.sparesData.set (n.val / 24) (x.sparesData.getD (n.val / 24) 0 - 1)) ∧
      (288 ≤ n.val → x.spareCmd = 0 → ∃ t, exec (.retrainComplete c ch [n]) s = .next t ∧ (t.chan c ch).retrain = none ∧
        (t.chan c ch).untrainable = true ∧ reports t (srcSlice c) memRetrainFail))

/-- REPAIR_START and REPAIR_ROW_STEP of a row (R183-R187): the MP takes a free reserve row of the row's own bank and enters it in the map;
the step copies the row's clean blocks and completes the entry, and the map change is queued. -/
def Obligations.RowsAreRepaired : Prop :=
  ∀ (s : State) (c : CoreId) (ch : ChanId) (h : Fin 2) (b : Fin 16) (row : Fin 4096) (dst : Nat) (e : RepairEntry), s.memWf →
    (s.slice c).chans.length = 4 → hasRoom s srcMp → s.err.spans = [] → s.mpUp = true → (s.chan c ch).lost = false →
    let bank := (ch.val * 2 + h.val) * 16 + b.val
    let u : RepairUnit := .row ch h b row
    ((s.slice c).repairs = [] → s.mem.ctEnable = false → ∃ t, exec (.repairStart c u) s = .next t ∧ reports t srcMp memRepairStart ∧
      (t.slice c).repairs = [{ unit := u, targets := [bank * 4224 + 4096], moved := 0, poisoned := 0, complete := false, lastStep := s.now }] ∧
      t.dram = s.dram ∧ t.cores = s.cores) ∧
    ((s.slice c).repairs = [e] → e.unit = u → exec (.repairStart c u) s = .next s) ∧
    ((s.slice c).repairs = [e] → e.unit = u → e.targets = [dst] → e.moved = 0 → e.complete = false → bank * 4224 + 4096 ≤ dst → dst < bank * 4224 + 4224 →
      (s.chan c ch).eddy = [] → s.chanHolds c ch = false → s.pairHeld c (rowCoord (bank * 4224 + row.val) 0) = false → s.regions = [] →
      (∀ i : Fin 64, let x := rowCoord (bank * 4224 + row.val) i; decodeFull (s.blkData c x) (s.blkCheck c x) = .clean) →
      ∃ t, exec (.repairRowStep c 0) s = .next t ∧
        (t.slice c).repairs = [{ e with moved := 1, complete := true, lastStep := s.now }] ∧
        (∀ i : Fin 64, t.blkData c (rowCoord dst i) = s.blkData c (rowCoord (bank * 4224 + row.val) i) ∧
          t.blkCheck c (rowCoord dst i) = checkWord (t.blkData c (rowCoord dst i))) ∧
        (∀ x, x < blkIndex c (rowCoord dst 0) * 36 ∨ (blkIndex c (rowCoord dst 0) + 64) * 36 ≤ x → memRead dramDefault t.dram x = memRead dramDefault s.dram x) ∧
        t.map.queue = s.map.queue ++ [plainChange .repair] ∧ t.cores = s.cores)

/-- SELF_REFRESH_ENTER and EXIT, LINE_RESTORE from a host copy that failed, SCRUB_ROW of a row no region holds, CODE_TEST_OP_DONE and
CHANNEL_LOST (R188, R189, R200, R205-R208, R453). -/
def Obligations.SlicesRestScrubAndLose : Prop :=
  ∀ (s : State) (c : CoreId) (ch : ChanId) (r : Region) (line : Nat), (s.slice c).chans.length = 4 → (s.slice c).units = [] →
    let k := s.slice c
    let quietChan (x : Chan) : Prop := x.heldQ = [] ∧ x.eddy = [] ∧ x.retrain = none
    (k.selfRefresh = false → k.launches = [] → (∀ d, quietChan (s.chan c d)) → (s.core c).mode = .off → s.procUp (2 + (towerOf c).val) = true →
      ∃ t, exec (.selfRefreshEnter c) s = .next t ∧ (t.slice c).selfRefresh = true ∧ t = s.setSlice c (t.slice c) ∧
        (∀ d, (s.chan c d).lost = false → (t.chan c d).openRows = [] ∧ (t.chan c d).owed = 0)) ∧
    (k.selfRefresh = true → exec (.selfRefreshEnter c) s = .next s) ∧
    (k.selfRefresh = true → stopping s = false → (∀ d, quietChan (s.chan c d) ∧ drifted s c d = false) → (∀ l, (k.layer l).band < 3) →
      ∃ t, exec (.selfRefreshExit c) s = .next t ∧ (t.slice c).selfRefresh = false ∧ t = s.setSlice c (t.slice c) ∧ (t.slice c).repairs = k.repairs) ∧
    (k.selfRefresh = false → exec (.selfRefreshExit c) s = .next s) ∧
    (s.regions = [r] → r.recovering = true → r.fenced = false → r.todo = [line] → r.restored = [] → r.restore = .host → s.mpUp = true →
      s.rangeHeld (r.lineAddr line).1 r.view (r.lineAddr line).2 4096 = false → ∃ t, exec (.lineRestore r.id line .failed) s = .next t ∧
        t.regions = [{ r with fenced := true, recovering := false, todo := [], restored := [] }] ∧ t.dram = s.dram ∧ t.cores = s.cores) ∧
    (s.regions = [] → exec (.lineRestore r.id line .failed) s = .next s) ∧
    (s.regions = [] → s.mem.scrubEn = true → k.selfRefresh = false → k.scrub.skipped = none → k.scrub.next + 1 < 128 * 4224 →
      s.chanHolds c (rowCoord k.scrub.next 0).ch = false →
      exec (.scrubRow c) s = .next (s.modSlice c (fun x => { x with scrub := { k.scrub with next := k.scrub.next + 1 } }))) ∧
    (s.mem.scrubEn = false → exec (.scrubRow c) s = .next s) ∧
    (s.mem.ctBusy = true → s.mem.ctOp = 0 → exec .codeTestOpDone s = .next { s with mem := { s.mem with ctBusy := false } }) ∧
    (s.mem.ctBusy = false → exec .codeTestOpDone s = .next s) ∧
    (lossDue s c ch .untrainable = true → (s.chan c ch).lost = false → s.err.spans = [] → s.regions = [] → s.pages = [] →
      (∀ d, d ≠ ch → (s.chan c d).lost = false) → hasRoom s srcMp → ∃ t, exec (.channelLost c ch .untrainable) s = .next t ∧
        (t.chan c ch).lost = true ∧ (t.chan c ch).eddy = [] ∧ (t.chan c ch).heldQ = [] ∧ t.isFenced 4 c.val ch.val = true ∧
        t.map.queue = s.map.queue ++ [{ plainChange .channelLoss with changed := [4 * c.val + ch.val] }] ∧ reports t srcMp memChannelLost ∧
        t.dram = s.dram ∧ t.cores = s.cores)

/-! ## Maps, epochs and the far tier (chapter 08) -/

/-- EPOCH_CHANGE_START, EPOCH_FLIP and TOWER_MIGRATION (R221-R224): the MP prepares the oldest change, the flip adopts it and advances the
epoch once no access to a changed channel is held, and a fenced tower's sets move one index at a time before it.
Far ports (R227, R231): a port that trains is up with its width, rate and capacity and an empty memory; a failed port tries again once a
second; a port that fails loses its regions; event records are forwarded every 100 ms. -/
def Obligations.MapEpochsAndFarPorts : Prop :=
  (∀ (s : State) (x : EpochChange) (rest : List EpochChange) (t : TowerId),
    (s.map.change = none → s.map.queue = x :: rest → s.mpUp = true → x.cause = .repair ∨ x.cause = .farPort →
      exec .epochChangeStart s = .next { s with map := { s.map with change := some x, queue := rest } }) ∧
    (s.map.change.isSome = true ∨ s.map.queue = [] ∨ s.mpUp = false → exec .epochChangeStart s = .next s) ∧
    (s.map.change = some x → s.mpUp = true → x.changed = [] → x.tower = none → x.cause = .repair → x.subsets = [] → x.unmapped = [] →
      exec .epochFlip s = .next (({ s with map := { s.map with change := none, epoch := s.map.epoch + 1 } } : State).log memMapEpochAdv srcMp (loc 0 0) 0 none
        [(s.map.epoch + 1).setWidth 64, 0, BitVec.ofNat 64 x.lines])) ∧
    (s.map.change = some x → (∃ g ∈ x.changed, (s.chan (gchCore g) (gchChan g)).lost = false ∧ (s.chan (gchCore g) (gchChan g)).heldQ ≠ []) →
      exec .epochFlip s = .next s) ∧
    (s.map.change = some x → x.tower = some t → x.migrated < s.setsAddr → (∀ y ∈ x.subsets, y.set ≠ x.migrated) →
      exec (.towerMigration t) s = .next { s with map := { s.map with change := some { x with migrated := x.migrated + 1 } } }) ∧
    (s.map.change = some x → x.tower ≠ some t → exec (.towerMigration t) s = .next s)) ∧
  (∀ (s : State) (p : FarPort) (w : Fin 5) (rate : Fin 3) (cap : Nat) (r : Region) (v : W64), s.far.length = 2 → s.mpUp = true → hasRoom s srcMp →
    let x := s.farPort p
    let up (t : State) : Prop := t.farPort p = ⟨if w = 4 ∧ rate = 2 then 2 else 3, w.val, rate.val, Nat.min cap 4096, s.now, s.now⟩ ∧
      t.map.queue = s.map.queue ++ [plainChange .farPort] ∧ (∀ q, q ≠ p → t.farPort q = s.farPort q) ∧ t.cores = s.cores ∧ t.dram = s.dram
    (s.farEnabled p = true → x.st < 2 → 2 ≤ w.val → ∃ t, exec (.farLinkUp p w rate cap) s = .next t ∧ up t) ∧
    (s.farEnabled p = false ∨ w.val < 2 → exec (.farLinkUp p w rate cap) s = .next s) ∧
    (x.st = 4 → s.farEnabled p = true → x.attempts + 1000000000 ≤ s.now →
      (2 ≤ w.val → ∃ t, exec (.farPortRetrain p (.up w rate cap)) s = .next t ∧ up t) ∧
      exec (.farPortRetrain p .down) s = .next (s.modFar p (fun x => { x with attempts := s.now }))) ∧
    (s.now < x.attempts + 1000000000 → exec (.farPortRetrain p .down) s = .next s) ∧
    (s.farUp p = true → s.regions = [r] → r.view = 2 → s.mem.farPair = true → r.lost = false → s.pages = [] → s.ctxs = [] → ∃ t,
      exec (.farLinkDown p) s = .next t ∧ (t.farPort p).st = 4 ∧ t.farUp p = false ∧
      t.regions = [{ r with lost := true, recovering := false, todo := [] }] ∧ t.map.queue = s.map.queue ++ [plainChange .farPort] ∧ t.dram = s.dram) ∧
    (s.farUp p = false → exec (.farLinkDown p) s = .next s) ∧
    (s.farUp p = true → x.polledAt + 100000000 ≤ s.now → exec (.farEventPoll p [v]) s =
      .next ((s.modFar p (fun x => { x with polledAt := s.now })).log memFarDevice srcMp (locPort 1 p.val) 0 none [BitVec.ofNat 64 p.val, v])) ∧
    (s.now < x.polledAt + 100000000 → exec (.farEventPoll p [v]) s = .next s))

/-! ## Near-bank launches and bank programs (chapter 09) -/

/-- A unit that runs its program outside any loop and outside a fixed window, with no boundary due. -/
def Sys2Proof.Claims.steps (s : State) (c : CoreId) (u : UnitId) : Prop :=
  let x := s.unit c u
  x.st = .running ∧ segOver s c u = false ∧ x.pc < x.prog.length ∧ x.loops = [] ∧ x.fixed = false

/-- The state with one unit as given. -/
def Sys2Proof.Claims.unitIs (s : State) (c : CoreId) (u : UnitId) (x : BankUnit) : Out := .next (s.modUnit c u (fun _ => x))

/-- A unit's program has ended in a state with a code, and nothing but its slice changed. -/
def Sys2Proof.Claims.unitEnds (s : State) (c : CoreId) (u : UnitId) (o : Out) (st : UnitSt) (code : Nat) : Prop :=
  ∃ t, o = .next t ∧ (t.unit c u).st = st ∧ (t.unit c u).code = code ∧ (t.unit c u).x = (s.unit c u).x ∧
    smGet (t.slice c).liveWords u.val = some (statusWord (t.unit c u)) ∧ t.cores = s.cores ∧ t.dram = s.dram

/-- Launches (R244-R248, R258): an admitted launch starts its idle unit with the program and x0 0, one whose checks fail faults the work
item; when every unit has ended the status words go to st_buf and the instruction completes; a poll reads the live words. -/
def Obligations.LaunchesStartAndComplete : Prop :=
  ∀ (s : State) (c k : CoreId) (u : UnitId) (l : Launch) (e : Entry) (w : W64) (st : BitVec 16), s.memWf → (s.slice c).launches = [l] →
    let r := readLaunch s c l.req
    let held := (match remoteParts l.req.arg, remoteParts l.req.prog with
      | some (0, a), some (0, p) => s.rangeHeld c 0 a 2496 || s.rangeHeld c 0 p 1024
      | _, _ => false)
    (l.admitted = false → (s.slice c).selfRefresh = false → (s.tower (towerOf c)).fastStop = false →
      s.pwr.nearBank.getD (towerOf c).val .on = .on → maskUnits l.req.mask = [u] → (s.unit c u).st = .idle → held = false →
      (r.fails = none → r.poison = false → l.req.classB = true ∨ classAFits s c l.req.mask = true → (r.s.slice c).launches = [l] →
        (r.s.unit c u).st = .idle → (r.s.unit c u).fencedU = false → (r.s.chan c (localCoord u 0).ch).lost = false →
        ∃ t, exec (.launchAdmit c) s = .next t ∧ (t.unit c u).st = (if l.req.fixed then .waiting else .running) ∧ (t.unit c u).prog = r.prog ∧
          (t.unit c u).pc = 0 ∧ (t.unit c u).x.head? = some 0 ∧ (t.unit c u).launch = l.id ∧ (t.unit c u).windows = r.windows ∧
          (t.slice c).launches = [{ l with admitted := true, prog := r.prog, args := r.args, windows := r.windows }] ∧
          t = r.s.setSlice c (t.slice c)) ∧
      (r.fails = some st → exec (.launchAdmit c) s =
        .next (faultOwn (r.s.modSlice c (fun k => { k with launches := k.launches.filter (fun x => x.id != l.id) })) l.req.core l.ord .nb st))) ∧
    (l.admitted = true → exec (.launchAdmit c) s = .next s) ∧
    (l.admitted = true → maskUnits l.req.mask = [u] → l.final = [(u.val, w)] → bits w 8 6 = 0 → l.req.core = k → (s.core k).inflight = [e] → e.ord = l.ord →
      e.queue = .nb → (s.core k).undef = [] → (s.core k).clash = [] → quiet (s.core k) → (s.core k).bufs = [] → ∃ t, exec (.nbLaunchComplete c) s = .next t ∧
        overwrites zeroByte s.coreStore t.coreStore (storeAt k (l.req.st.addr + 8 * u.val)) (natLe 8 w.toNat) ∧
        (t.core k).inflight = [] ∧ (t.slice c).launches = [] ∧ (t.core k).regs = (s.core k).regs ∧ t.dram = s.dram) ∧
    (l.admitted = false → exec (.nbLaunchComplete c) s = .next s) ∧
    ((s.slice c).units = [(u.val, s.unit c u)] → (s.unit c u).st = .running →
      exec (.nbStatusPoll c) s = .next (s.modSlice c (fun k => { k with liveWords := smSet k.liveWords u.val (statusWord (s.unit c u)) })))

/-- Segments and the events that end them (R256-R266): a grant begins one, its limit forces a boundary, the eighth owed refresh suspends the
channel's units, a layer's meter and a fixed window stop their units, a failed check ends the program and the second within 1 s fences. -/
def Obligations.SegmentsBeginAndEnd : Prop :=
  ∀ (s : State) (c : CoreId) (u : UnitId) (l : LayerId) (syn : W32) (t0 : Nat), (s.slice c).chans.length = 4 → (s.slice c).layers.length = 8 →
    let x := s.unit c u
    let ch := (localCoord u 0).ch
    let free : Prop := x.segU = (0, none) ∧ x.segC = (0, none) ∧ x.segP = (0, none) ∧ x.pendingLaunch = none
    (x.st = .waiting → s.chanHolds c ch = false → (s.tower (towerOf c)).fastStop = false → x.fixed = false → x.classB = false →
      (s.chan c ch).owed < s.mem.refreshDefer.toNat → turnWaits s c u = false → ceilingReached s c x.part = false →
      exec (.segmentGrant c u) s = unitIs s c u { x with st := .running, segment := some s.now, chargedAt := s.now, segments := x.segments + 1 }) ∧
    (x.st ≠ .waiting → exec (.segmentGrant c u) s = .next s) ∧
    (x.st = .running → x.fixed = false → x.segment = some t0 → segOver s c u = true → free → ∃ t, exec (.segmentLimit c u) s = .next t ∧
      (t.unit c u).st = .waiting ∧ (t.unit c u).forced = x.forced + 1 ∧ (t.unit c u).segment = none ∧ (t.unit c u).pc = x.pc ∧ (t.unit c u).x = x.x ∧
      t.dram = s.dram ∧ t.cores = s.cores) ∧
    (segOver s c u = false → exec (.segmentLimit c u) s = .next s ∧ exec (.fixedWindowClose c u) s = .next s) ∧
    (x.st = .running → x.fixed = false → x.segment = some t0 → (s.chan c ch).owed = 8 → hasRoom s (srcUnit c) → ∃ t,
      exec (.nbRefreshSuspend c ch) s = .next t ∧ (t.unit c u).refreshSusp = true ∧ (t.unit c u).st = .running ∧ (t.chan c ch).owed = 0 ∧
      (t.chan c ch).refreshRow = ((s.chan c ch).refreshRow + 8) % 4224 ∧ t.dram = s.dram ∧ t.cores = s.cores) ∧
    ((s.chan c ch).owed < 8 → exec (.nbRefreshSuspend c ch) s = .next s) ∧
    (classBBudget s c l ≤ ((s.slice c).layer l).meter → u.val / 8 = l.val → x.classB = true → (∀ v, v ≠ u → (s.unit c v).classB = false) → x.st = .running → x.segment = some t0 → free → ∃ t,
      exec (.classbMeterLimit c l) s = .next t ∧ ((t.slice c).layer l).bSuspended = true ∧ (t.unit c u).st = .waiting ∧ (t.unit c u).segment = none) ∧
    (((s.slice c).layer l).meter < classBBudget s c l → exec (.classbMeterLimit c l) s = .next s) ∧
    (x.st = .running → x.fixed = true → x.segment = some t0 → t0 + 768 ≤ s.now → free →
      unitEnds s c u (exec (.fixedWindowClose c u) s) .failed 4) ∧
    (x.st = .running → free → x.faults = [] → x.segment = none → unitEnds s c u (exec (.nbUnitFault c u syn) s) .failed 6) ∧
    (x.st = .running → free → x.faults = [s.now] → x.segment = none → x.fencedU = false → ∃ t, exec (.nbUnitFault c u syn) s = .next t ∧
      (t.unit c u).fencedU = true ∧ t.isFenced 3 c.val u.val = true) ∧
    (x.active = false → exec (.nbUnitFault c u syn) s = .next s)

/-- Control and scalar micro-operations (R250, Table 9.5): x0 ignores writes, a register takes the result and the poison of its sources,
scratch words are loaded and stored by index, a loop latches its count, JNZ transfers when the register is not 0, SMARK writes the mark,
KVCFG and ROTCFG set the stream engine, END ends the program, and a reserved form ends it with ST_NB_ILLEGAL. -/
def Obligations.BankControlAndScalars : Prop :=
  ∀ (s : State) (c : CoreId) (u : UnitId) (a b d : BitVec 4) (m : BitVec 10) (imm : BitVec 18) (hi : BitVec 22), steps s c u →
    let x := s.unit c u
    let f : MicroF := { a := a, b := b, c := d, d := 0, m := m }
    let go (y : BankUnit) : Out := unitIs s c u { y with pc := x.pc + 1 }
    let p := x.r b
    let q := x.r d
    let bad := x.rBad b || x.rBad d
    let alu (n : Nat) (v : W32) : Prop := m.toNat = n → exec (.alu c u f) s = go (x.setR a v bad)
    let idle : Prop := x.segment = none ∧ x.pendingLaunch = none
    exec (.nbAddi c u a b imm) s = go (x.setR a (p + imm.signExtend 32) (x.rBad b)) ∧
    exec (.lui c u a hi) s = go (x.setR a (BitVec.ofNat 32 (hi.toNat * 1024)) false) ∧
    x.setR 0 p bad = x ∧ x.r 0 = 0 ∧
    alu 0 (p + q) ∧ (∀ sh < 32, alu (16 * sh) (p + q <<< sh)) ∧ alu 1 (p - q) ∧ alu 2 (p * q) ∧ alu 3 (p &&& q) ∧ alu 4 (p ||| q) ∧
    alu 5 (p <<< (q.toNat % 32)) ∧ alu 6 (p >>> (q.toNat % 32)) ∧ alu 7 (if p.toInt ≤ q.toInt then p else q) ∧
    alu 8 (if p.toInt ≤ q.toInt then q else p) ∧ alu 9 (fadd p q) ∧ alu 10 (fsub p q) ∧ alu 11 (fmul p q) ∧ alu 12 (fmax p q) ∧ alu 13 (fmin p q) ∧
    (d = 0 → alu 14 (fexp2 (Config.approxErr 0) p)) ∧
    (idle → m.toNat % 16 = 15 → unitEnds s c u (exec (.alu c u f) s) .failed 2) ∧
    (p.toNat + m.toNat < 8192 →
      exec (.ldw c u { f with c := 0 }) s = go (x.setR a (x.w (p.toNat + m.toNat)) (x.wBad (p.toNat + m.toNat))) ∧
      exec (.stw c u { f with c := 0 }) s = go (x.put (p.toNat + m.toNat) (x.r a) (x.rBad a))) ∧
    (idle → 8192 ≤ p.toNat + m.toNat → unitEnds s c u (exec (.ldw c u { f with c := 0 }) s) .failed 1) ∧
    (0 < m.toNat → m.toNat ≤ 255 →
      (x.r a = 0 → exec (.loop c u { f with b := 0, c := 0 }) s = unitIs s c u { x with pc := x.pc + m.toNat + 1 }) ∧
      (x.r a ≠ 0 → exec (.loop c u { f with b := 0, c := 0 }) s =
        unitIs s c u { x with pc := x.pc + 1, loops := [(x.pc + 1, x.pc + m.toNat, (x.r a).toNat)] })) ∧
    (m ≠ 0 → (x.r a = 0 → exec (.jnz c u { f with b := 0, c := 0 }) s = go x) ∧
      (x.r a ≠ 0 → 0 ≤ (x.pc : Int) + m.toInt → exec (.jnz c u { f with b := 0, c := 0 }) s = unitIs s c u { x with pc := ((x.pc : Int) + m.toInt).toNat })) ∧
    (m.toNat ≤ 255 → x.segment = none → exec (.smark c u { f with a := 0, b := 0, c := 0 }) s = go { x with mark := m.setWidth 8 }) ∧
    (2 ≤ m.toNat % 8 → m.toNat % 8 ≤ 4 → 2 ≤ m.toNat / 8 % 8 → m.toNat / 8 % 8 ≤ 4 → exec (.kvcfg c u { f with c := 0 }) s = go { x with
      stream := some { kfmt := m.toNat % 8, vfmt := m.toNat / 8 % 8, rot := m.getLsbD 6, w := 32 * (m.toNat / 128 + 1), prescale := x.r a, bad := x.rBad a,
                       accBase := p.toNat } }) ∧
    exec (.rotcfg c u { a := a, b := 0, c := 0, d := 0, m := 0 }) s = go { x with pos := x.r a, rowsSinceSync := 0 } ∧
    (idle → unitEnds s c u (exec (.nbEnd c u { a := 0, b := 0, c := 0, d := 0, m := 0 }) s) .ended 0 ∧
      (m ≠ 0 → unitEnds s c u (exec (.nbEnd c u { a := 0, b := 0, c := 0, d := 0, m := m }) s) .failed 2))

/-- Clean full-code blocks of a unit's pair at a local address, with windows that cover them and no row moved by a repair. -/
def Sys2Proof.Claims.reads (s : State) (c : CoreId) (u : UnitId) (t n : Nat) : Prop :=
  (s.slice c).repairs = [] ∧ t % 32 = 0 ∧ t + 32 * n ≤ 2 ^ 24 ∧ ∀ i < n, let a := localCoord u (t + 32 * i)
    decodeFull (s.blkData c a) (s.blkCheck c a) = .clean ∧ ∃ w, (s.unit c u).window ((t + 32 * i) / 4096) false = some w ∧ w.ptype = .state

/-- The bytes that blocks of a unit's pair hold. -/
def Sys2Proof.Claims.holds (s : State) (c : CoreId) (u : UnitId) (t n : Nat) : List Byte :=
  (List.range n).flatMap (fun i => natLe 32 (s.blkData c (localCoord u (t + 32 * i))).toNat)

/-- A block of a unit's pair written: its data and fresh check word, and no other byte of slice memory. -/
def Sys2Proof.Claims.writes (s t : State) (c : CoreId) (u : UnitId) (at_ : Nat) (bs : List Byte) : Prop :=
  let d : BlockData := BitVec.ofNat 256 (leNat bs)
  overwrites dramDefault s.dram t.dram (blkIndex c (localCoord u at_) * 36) (stored d (checkWord d))

/-- Stream and scratch micro-operations (R250-R254, Table 9.5): LDR and RLOAD bring a row of FP32 words and a resident slot in, STR, CVT and
GATHER write whole blocks, DOTS scores a row against a slot, SACC adds a weighted row, VOP and VRED work on scratch words; a count of 0
does nothing and needs no segment. -/
def Obligations.BankStreamsAndScratch : Prop :=
  ∀ (s : State) (c : CoreId) (u : UnitId) (a b n d : BitVec 4) (t0 : Nat) (cfg : StreamCfg), s.memWf → steps s c u →
    let x := s.unit c u
    let p := (x.r a).toNat
    let q := (x.r b).toNat
    let k := (x.r n).toNat
    let r := (x.r d).toNat
    let f (m : Nat) : MicroF := { a := a, b := b, c := n, d := d, m := BitVec.ofNat 10 m }
    let done (o : Out) (y : State → BankUnit) : Prop := ∃ t, o = .next t ∧ t.unit c u = y t ∧ (t.unit c u).pc = x.pc + 1 ∧ t = s.setSlice c (t.slice c)
    let wrote (o : Out) (at_ : Nat) (bs : List Byte) : Prop := ∃ t, o = .next t ∧ writes s t c u at_ bs ∧ (t.unit c u).pc = x.pc + 1 ∧
      (t.unit c u).x = x.x ∧ (t.unit c u).scratch = x.scratch ∧ t = { s.setSlice c (t.slice c) with dram := t.dram, pages := t.pages, free := t.free }
    let same (o : Out) : Prop := o = unitIs s c u { x with pc := x.pc + 1 }
    (k = 0 → cfg.w = 32 → x.stream = some cfg →
      same (exec (.ldr c u { f 0 with d := 0 }) s) ∧ same (exec (.str c u { f 0 with d := 0 }) s) ∧ same (exec (.cvt c u { f 0 with d := 0 }) s) ∧
      same (exec (.dots c u (f 1)) s) ∧ same (exec (.sacc c u (f 1)) s)) ∧
    (r = 0 → same (exec (.gather c u (f 0)) s)) ∧
    (x.segment = some t0 → x.taintR = 0 → x.taintS = [] → x.taintX = 0 → rising none x.resMant = true → rising none x.resExp = true →
      rising none x.scratch = true →
      (k = 1 → reads s c u p 4 → q + 32 ≤ 8192 → done (exec (.ldr c u { f 0 with d := 0 }) s)
        (fun t => { x.putAll q ((nbDecode 0 32 (holds s c u p 4) []).map (fun v => (v, false))) with pc := (t.unit c u).pc })) ∧
      (reads s c u p 9 → ∀ slot < 8, ∃ t, exec (.rload c u { a := a, b := 0, c := 0, d := 0, m := BitVec.ofNat 10 slot }) s = .next t ∧
        (∀ j < 256, (smGet (t.unit c u).resMant (256 * slot + j)).getD 0 = (holds s c u p 9).getD j 0) ∧
        (∀ j < 8, (smGet (t.unit c u).resExp (8 * slot + j)).getD 0 = (holds s c u p 9).getD (256 + j) 0) ∧
        (t.unit c u).pc = x.pc + 1 ∧ t = s.setSlice c (t.slice c)) ∧
      (k = 8 → reads s c u p 1 → q % 32 = 0 → q + 32 ≤ 2 ^ 24 → (∃ w, x.window (q / 4096) true = some w ∧ w.ptype = .state) → x.sr = false →
        wrote (exec (.cvt c u { f 0 with d := 0 }) s) q ((convert 1 1 false false 0 (fun i => Config.draw (s.free + i)) 8
          ((nbDecode 0 8 (holds s c u p 1) []).flatMap (fun v => natLe 4 v.toNat))).out.take 32)) ∧
      (r = 1 → reads s c u q 1 → (let i := leNat ((holds s c u q 1).take 4); reads s c u (k + 32 * i) 1) → p % 32 = 0 → p + 32 ≤ 2 ^ 24 → k % 32 = 0 →
        (∃ w, x.window (p / 4096) true = some w ∧ w.ptype = .state) →
        wrote (exec (.gather c u (f 0)) s) p (holds s c u (k + 32 * leNat ((holds s c u q 1).take 4)) 1)) ∧
      (k = 1 → x.stream = some cfg → cfg.w = 32 → cfg.kfmt = 2 → cfg.vfmt = 2 → cfg.rot = false → cfg.bad = false → reads s c u p 1 → reads s c u r 1 →
        let row := (holds s c u p 1).take 32
        let scale := leNat ((holds s c u r 1).take 2)
        (q < 8192 → done (exec (.dots c u (f 1)) s) (fun t => { x.put q (score x cfg row scale x.pos (x.rowsSinceSync % 256) 0) false with
          pos := x.pos + 1, rowsSinceSync := (x.rowsSinceSync + 1) % 256, pc := (t.unit c u).pc })) ∧
        (∀ v, q < 8192 → cfg.accBase + 32 ≤ 8192 → q < cfg.accBase → rowScale scale = some v → ∃ t, exec (.sacc c u (f 1)) s = .next t ∧
          (∀ j < 32, (t.unit c u).w (cfg.accBase + j) =
            ffma (toF32 ((f32v (x.w q)).mul v)) (toF32 (FVal.ofInt ((rowCodes 2 32 row scale).getD j 0))) (x.w (cfg.accBase + j))) ∧
          (t.unit c u).x = x.x ∧ (t.unit c u).pc = x.pc + 1 ∧ t = s.setSlice c (t.slice c)))) ∧
    (∀ src, x.segment = some t0 → k = 1 → p + 32 ≤ 8192 → q % 32 = 0 → q + 128 ≤ 2 ^ 24 → (s.slice c).repairs = [] → x.sr = false → x.taintS = [] →
      (∀ i < 4, ∃ w, x.window ((q + 32 * i) / 4096) true = some w ∧ w.ptype = .state) →
      src = (convert 1 1 false false 0 (fun i => Config.draw (s.free + i)) 32 ((List.range 32).flatMap (fun i => natLe 4 (x.w (p + i)).toNat))).out →
      ∃ t, exec (.str c u { f 0 with d := 0 }) s = .next t ∧ (t.unit c u).pc = x.pc + 1 ∧ (t.unit c u).scratch = x.scratch ∧
        (∀ i < 4, t.blkData c (localCoord u (q + 32 * i)) = BitVec.ofNat 256 (leNat ((src.drop (32 * i)).take 32)) ∧
          t.blkCheck c (localCoord u (q + 32 * i)) = checkWord (t.blkData c (localCoord u (q + 32 * i))))) ∧
    (x.taintS = [] → b = 0 → p + k ≤ 8192 → exec (.vop c u (f 1)) s = unitIs s c u
      { x.putAll p ((List.range k).map (fun _ => (x.r d, x.rBad d))) with pc := x.pc + 1 }) ∧
    (x.taintS = [] → x.taintX = 0 → p + k ≤ 8192 → q + k ≤ 8192 →
      let vop (m : Nat) (e : BitVec 4) (g : Nat → W32) : Prop := exec (.vop c u { f m with d := e }) s = unitIs s c u
        { x.putAll p ((List.range k).map (fun i => (g i, false))) with pc := x.pc + 1 }
      vop 0 0 (fun i => x.w (q + i)) ∧ vop 2 d (fun i => fadd (x.w (q + i)) (x.r d)) ∧ vop 3 d (fun i => fmul (x.w (q + i)) (x.r d)) ∧
      vop 5 d (fun i => fmax (x.w (q + i)) (x.r d)) ∧ vop 6 0 (fun i => fadd (x.w (p + i)) (x.w (q + i))) ∧
      vop 7 0 (fun i => fmax (x.w (p + i)) (x.w (q + i))) ∧ vop 8 d (fun i => ffma (x.w (q + i)) (x.r d) (x.w (p + i))) ∧
      (k = 1 → exec (.vred c u { f 1 with d := 0 }) s = .next ((s.drew 1).modUnit c u (fun _ => { x.setR a (x.w q) false with pc := x.pc + 1 }))) ∧
      (k = 1 → exec (.vred c u { f 0 with d := 0 }) s = .next ((s.drew 1).modUnit c u (fun _ => { x.setR a (x.w q) false with pc := x.pc + 1 }))))

/-! ## Descriptors of the rings (chapters 10, 12, 14) -/

/-- The context that a descriptor's command names after the command: a record of the status waits for its place in the completion ring, and
the descriptor, which could produce no other, is gone. -/
def Sys2Proof.Claims.recorded (s t : State) (c : CtxId) (d : Desc) (status : BitVec 16) (tag : W64) : Prop :=
  ∀ x, s.ctx? c = some x → x.desc? d.id = some d → d.recsLeft = 1 → d.peer = none → d.quiet = false → x.errPending = false →
    let r : Rec := ⟨d.seq, status, d.type, false, (s.fn x.fn).isLost, true, d.irq, tag, 0, 0, 0⟩
    ∃ y, t.ctx? c = some y ∧ y.recs = x.recs ++ [r] ∧
      y.descs.all (fun e => 0 < e.recsLeft) = true ∧ y.st = x.st ∧ y.sqHead = x.sqHead

/-- Descriptors that complete at once (R274, R299-R301, R334, R337): the record's status and value, and the object created, changed or gone. -/
def Obligations.DescriptorsComplete : Prop :=
  ∀ (s : State) (c : CtxId) (seq : W32) (x : Ctx) (d : Desc) (q : Seq) (h : HostRead), let w (i : Nat) : W64 := d.words.getD i 0
    let op := bits (w 1) 56 8
    let up := leaderUp s (lowCore s x.part) = true
    (∀ st tag, recorded s (s.record c d.id st tag) c d st tag) ∧
    (startable s c seq 0 = some (x, d) → exec (.descNop c seq) s = .next (s.record c d.id stOk)) ∧
    (startable s c seq 0 = none → exec (.descNop c seq) s = .next s) ∧
    (startable s c seq 3 = some (x, d) →
      (remoteParts (w 2) = none → exec (.copy c seq h) s = .next (s.record c d.id stMoveAddr)) ∧
      (∀ a, remoteParts (w 2) = some (0, a) → exec (.copy c seq h) s = .next (s.record c d.id stMoveAddr)) ∧
      (∀ v a st, v ≠ 0 → remoteParts (w 2) = some (v, a) → s.accessFails x.part 0 v a (bits (w 3) 0 32) (!(bit (w 3) 32)) = some st →
        exec (.copy c seq h) s = .next (s.record c d.id st)) ∧
      (∀ v a ws, v ≠ 0 → remoteParts (w 2) = some (v, a) → let n := bits (w 3) 0 32
        s.accessFails x.part 0 v a n true = none → s.rangeHeld 0 v a n = false → (s.fn x.fn).attached = true → bit (w 3) 32 = false →
        n ≤ 8 * ws.length → ∃ t u : State, exec (.copy c seq (.words ws)) s = .next (t.record c d.id stOk (w64 n)) ∧ u.dram = s.dram ∧ u.farMem = s.farMem ∧
          t = u.viewWrite 0 v a ((ws.flatMap (fun w => natLe 8 w.toNat)).take n) false ∧ u.hostMem = s.hostMem ∧ u.cores = s.cores)) ∧
    (startable s c seq 4 = some (x, d) → op = 1 → leaderUp s (bits (w 2) 55 9) = true → let id : W32 := (w 1).setWidth 32
      (x.kv.isNone = true → exec (.seqOpen c seq) s = .next (s.record x.num d.id stKvConfig)) ∧
      (x.kv.isSome = true → s.seq? x.num id = some q → exec (.seqOpen c seq) s = .next (s.record x.num d.id stSeqExists)) ∧
      (x.kv.isSome = true → s.seq? x.num id = none → 0 < bits (w 2) 45 10 → bits (w 2) 55 9 + bits (w 2) 45 10 ≤ 512 → bit (w 2) 0 = false →
        (∀ i < bits (w 2) 45 10, bits (w 2) 55 9 + i ∈ (s.part x.part).cores) → ∃ y, exec (.seqOpen c seq) s =
          .next (({ s with seqs := s.seqs ++ [y] }).record x.num d.id stOk) ∧ y.ctx = x.num ∧ y.seqId = id ∧ y.part = x.part ∧ y.st = .active ∧
          y.firstCore = bits (w 2) 55 9 ∧ y.coreCount = bits (w 2) 45 10 ∧ y.tokens = 0 ∧ y.firstPos = (w 3).setWidth 32 ∧
          y.evictable = bit (w 2) 1 ∧ y.ring = false)) ∧
    (startable s c seq 4 = some (x, d) → s.seq? c ((w 1).setWidth 32) = some q → q.st ≠ .ending → leaderUp s q.firstCore = true →
      (op = 3 → let set (y : Seq) : Seq := { y with priority := BitVec.ofNat 8 (bits (w 2) 8 8), evictable := bit (w 2) 1 }
        exec (.seqSet c seq) s = .next ((s.modSeq c q.seqId set).record c d.id stOk)) ∧
      (op = 4 → isRowFmt (bits (w 3) 3 3) = false → exec (.seqNarrow c seq) s = .next (s.record c d.id stDescInvalid)) ∧
      (op = 4 → isRowFmt (bits (w 3) 3 3) = true → isRowFmt (bits (w 3) 0 3) = true → q.narrowDesc = none → (s.kvOf c).isSome = true →
        s.seqPages c q.seqId = [] → exec (.seqNarrow c seq) s = .next (s.record c d.id stOk)) ∧
      (op = 2 → q.withheld = none → q.narrowDesc = none → s.seqPages c q.seqId = [] → ∃ t : State, exec (.seqEnd c seq) s = .next (t.record c d.id stOk) ∧
          t.seq? c q.seqId = none ∧ t.pages = s.pages ∧ t.dram = s.dram ∧ t.cores = s.cores)) ∧
    (startable s c seq 4 = some (x, d) → s.seq? c ((w 1).setWidth 32) = none →
      (op = 2 → exec (.seqEnd c seq) s = .next (s.record c d.id stSeqUnknown)) ∧ (op = 3 → exec (.seqSet c seq) s = .next (s.record c d.id stSeqUnknown)) ∧
      (op = 4 → exec (.seqNarrow c seq) s = .next (s.record c d.id stSeqUnknown))) ∧
    (startable s c seq 5 = some (x, d) → up → tableBase x = none → exec (.sound c seq) s = .next (s.record c d.id stSoundRange)) ∧
    (startable s c seq 5 = some (x, d) → up → ∀ base, tableBase x = some base → let t : TowerId := Fin.ofNat 8 (lowCore s x.part / 64)
      let k : CoreId := Fin.ofNat 512 (64 * t.val)
      let tag : BitVec 12 := (w 1).setWidth 12
      let level := bits (w 2) 0 2
      let e := base + 256 + 256 * tag.toNat + 32
      let r := spreadWord (spreadWord s k base).1 k e
      tag.toNat < bits (spreadWord s k base).2 16 16 → level ≤ bits r.2 44 2 → ∃ t' : State, exec (.sound c seq) s = .next (t'.record c d.id stOk) ∧
        t'.sched.levels = setLevel r.1.sched.levels { tower := t, ctx := c, tag := tag, level := level }) ∧
    (startable s c seq 6 = some (x, d) → up →
      (op = 1 → ∃ y, exec (.tableCreate c seq) s =
        .next (({ s with tables := s.tables ++ [y], free := s.free + 1 }).record c d.id stOk (y.id.setWidth 64)) ∧
        y.id = freshId s.free (s.tables.map (·.id)) ∧ y.ctx = c ∧ y.st = .stable ∧ y.arg0 = w 2 ∧ y.arg1 = w 3 ∧ y.version = 0 ∧
        y.committed = false) ∧
      (op = 2 → let mine (t : Table) : Bool := t.id == (w 1).setWidth 32 && t.ctx == c
        (s.tables.any (fun t => mine t && t.st == .stable) = true →
          exec (.tableDestroy c seq) s = .next (({ s with tables := s.tables.filter (fun t => !mine t) }).record c d.id stOk)) ∧
        (s.tables.any (fun t => mine t && t.st == .stable) = false → exec (.tableDestroy c seq) s = .next (s.record c d.id stTableBusy))))

/-- Descriptors handed to the schedulers (R300, R333, R336, R337, R388, R390): the array of a WORK is read into the scheduler's list, a table it
builds goes to BUILDING; a STEP whose entries can run becomes a step of the scheduler with its sequences to be given pages. -/
def Obligations.WorkAndStepsAreTaken : Prop :=
  ∀ (s : State) (c : CtxId) (seq : W32) (x : Ctx) (d : Desc), let w (i : Nat) : W64 := d.words.getD i 0
    (startable s c seq 1 = some (x, d) → let n := bits (w 2) 48 16
      let first := if bits (w 2) 29 10 = 0 then lowCore s x.part else bits (w 2) 39 9
      leaderUp s first = true → (w 3).setWidth 32 = (0xFFFFFFFF : W32) →
      (spreadArea s x.part (w 1) (64 * n) false = none → exec (.work c seq) s = .next (s.recordLast c d.id stDescInvalid)) ∧
      (∀ a, spreadArea s x.part (w 1) (64 * n) false = some a → s.rangeHeld 0 1 a (64 * n) = false → (s.viewRead 0 1 a (64 * n)).2.2 = false →
        let r := s.viewRead 0 1 a (64 * n)
        ∃ t items, exec (.work c seq) s = .next (markStarted t c d) ∧ items.length = n ∧ t.sched.waiting = r.1.sched.waiting ++ items ∧
          t.sched.order = r.1.sched.order + n ∧ t.dram = r.1.dram ∧ t.cores = r.1.cores ∧
          ∀ j < n, ∃ i, items[j]? = some i ∧ i = itemOf x d none first (bits (w 2) 29 10) (r.1.sched.order + j)
            (((leWords r.2.1 (8 * n)).drop (8 * j)).take 8) ∧ i.context = x.num ∧ i.partition = x.part)) ∧
    (startable s c seq 1 = some (x, d) → (w 3).setWidth 32 ≠ (0xFFFFFFFF : W32) → leaderUp s (lowCore s x.part) = true → bits (w 2) 29 10 = 0 →
      let tab := s.tables.find? (fun t => t.id == (w 3).setWidth 32 && t.ctx == c)
      (tab = none → exec (.work c seq) s = .next (s.recordLast c d.id stDescInvalid)) ∧
      (∀ t, tab = some t → t.st ≠ .stable → exec (.work c seq) s = .next (s.recordLast c d.id stTableBusy))) ∧
    (startable s c seq 1 = none → exec (.work c seq) s = .next s) ∧
    (startable s c seq 2 = none → exec (.step c seq) s = .next s) ∧
    (startable s c seq 2 = some (x, d) → leaderUp s (lowCore s x.part) = true → bits (w 2) 0 16 = 1 → ∀ a,
      spreadArea s x.part (w 1) 4 false = some a → s.rangeHeld 0 1 a 4 = false → let r := s.viewRead 0 1 a 4
      let id : W32 := BitVec.ofNat 32 (leNat (r.2.1.take 4))
      let p := readPlan r.1 x.part (w 3)
      r.2.2 = false →
      (p.2 = none → exec (.step c seq) s = .next ((markStarted p.1 c d).record c d.id stDescInvalid)) ∧
      (∀ plan q, p.2 = some plan → p.1.seqs = [q] → q.ctx = c → q.seqId = id →
        (q.st = .ending → exec (.step c seq) s = .next ((markStarted p.1 c d).record c d.id stSeqUnknown (id.setWidth 64))) ∧
        (q.st = .active → q.withheld = some d.id → exec (.step c seq) s = .next ((markStarted p.1 c d).record c d.id stSeqBusy (id.setWidth 64))) ∧
        (q.st = .active → q.withheld = none → p.1.sched.steps = [] → ∃ t run, exec (.step c seq) s = .next t ∧ t.sched.steps = [run] ∧
          run.ctx = c ∧ run.seq = d.id ∧ run.stepNo = (w 4).setWidth 32 ∧ run.batch = [(id, d.id)] ∧ run.toAlloc = [id] ∧
          run.layers = plan.layers ∧ run.layer = 0 ∧ run.phase = 0 ∧ t.seqs = [{ q with lastStep := run.stepNo, own := (if q.own = stSeqBusy then 0 else q.own) }] ∧
          t.pages = p.1.pages ∧ t.dram = p.1.dram ∧ t.cores = p.1.cores)))

/-! ## Pages of the key/value cache (chapters 08, 10) -/

/-- Allocation at a step start and its retries, counts, plans, ring passes and tables (R280, R282, R290, R294, R297, R300, R388-R390). -/
def Obligations.StepsAllocateAndPlan : Prop :=
  ∀ (s : State) (c : CtxId) (id step : W32) (r : StepRun) (q : Seq) (k : KvCfg) (pool : Region) (x : Ctx) (p : Page) (f : PhaseP) (plan : PlanP),
    let turn : Prop := s.sched.steps.find? (fun r => r.ctx == c && r.toAlloc.contains id) = some r ∧ s.seq? c id = some q ∧
      s.kvOf c = some (k, pool) ∧ leaderUp s q.firstCore = true ∧ allocTurn s r q = true
    let freed := releaseReservations s c q.places
    (s.sched.steps.find? (fun r => r.ctx == c && r.toAlloc.contains id) = none → exec (.pageAllocate c id) s = .next s) ∧
    (turn → q.st ≠ .ending → (allocAll s k pool q).2 = 0 → ∃ t y, exec (.pageAllocate c id) s = .next t ∧ t.seq? c id = some y ∧ y.st = .active ∧
      y.withheld = none ∧ y.lastStep = r.stepNo ∧ t.pages = (allocAll s k pool q).1.pages ∧ t.dram = (allocAll s k pool q).1.dram ∧ t.cores = s.cores) ∧
    (∀ key t, newPage s k pool q key = some t → ∃ y, t.pages.getLast? = some y ∧
      t.pages.map (·.key) = s.pages.map (·.key) ++ [key] ∧ y.key = key ∧ y.st = .resident ∧ y.count = 0 ∧ y.pins = 0 ∧
      y.gen = 1 ∧ y.kfmt = k.kfmt ∧ y.vfmt = k.vfmt ∧ y.clean = false) ∧
    (needed s k q = [] → allocAll s k pool q = (s, 0)) ∧
    (turn → q.st = .active → (allocAll s k pool q).2 ≠ 0 → (allocAll freed k pool q).2 ≠ 0 → q.allocSince = none →
      freed.victims q.part q.priority q.places = [] →
      (k.waitTimeout ≠ 0 → ∃ t y, exec (.pageAllocate c id) s = .next t ∧ t.seq? c id = some y ∧ y.st = .pageWait ∧ y.waitSince = s.now ∧
        y.withheld.isSome = true ∧ t.pages = s.pages ∧ t.dram = s.dram) ∧
      (k.waitTimeout = 0 → ∃ t y, exec (.pageAllocate c id) s = .next t ∧ t.seq? c id = some y ∧ y.st = .active ∧ t.pages = s.pages ∧
        t.dram = s.dram)) ∧
    (s.seq? c id = some q → q.expired = true → q.st = .pageWait → leaderUp s q.firstCore = true → ∃ t y, exec (.kvWaitTimeout c id) s = .next t ∧
      t.seq? c id = some y ∧ y.st = .active ∧ y.withheld = none ∧ y.expired = false ∧ t.pages = s.pages ∧ t.dram = s.dram ∧ t.cores = s.cores) ∧
    (s.seq? c id = some q → q.expired = false → exec (.kvWaitTimeout c id) s = .next s) ∧
    (s.page? p.key = some p → p.tailDue = true → s.tsUp p.core = true → p.count < 256 → p.st ≠ .lost → let up (y : Page) : Page := { y with count := y.count + 1, gen := y.gen + 1, tailDue := false }
      let more (y : Seq) : Seq := { y with tokens := y.tokens + 1 }
      exec (.tailCountRaise p.key) s = .next (if p.key.stream = 0 then (s.modPage p.key up).modSeq p.key.ctx p.key.seqId more else s.modPage p.key up)) ∧
    (s.page? p.key = some p → p.tailDue = false → exec (.tailCountRaise p.key) s = .next s) ∧
    (s.sched.steps.find? (fun r => r.ctx == c && r.stepNo == step && r.toAlloc.isEmpty && decide (r.layer < r.layers)) = some r →
      s.ctx? c = some x → s.kvOf c = some (k, pool) → leaderUp s (lowCore s x.part) = true → let y := readPlan s x.part r.planAddr
      (y.2 = none → r.layer = 0 → r.phase = 0 → exec (.layerPlanBuild c step) s = .next (refuseStep y.1 r)) ∧
      (y.2 = some plan → plan.phases[r.phase]? = some f → f.kind = 0 → phaseReady s r f plan.phases.length = true → 0 < r.layer →
        r.areaUsed ≤ 4096 * plan.workSize → ∃ t items, exec (.layerPlanBuild c step) s = .next t ∧ t.sched.waiting = y.1.sched.waiting ++ items ∧
          items.length = f.coreCount ∧ t.sched.order = y.1.sched.order + f.coreCount ∧ t.pages = y.1.pages ∧ t.dram = y.1.dram ∧
          ∀ i < f.coreCount, ∃ w, items[i]? = some w ∧ w.firstCore = f.firstCore + i ∧ w.coreCount = 1 ∧ w.context = x.num ∧ w.partition = x.part ∧
            w.priority = f.priority ∧ w.progBase = f.progBase ∧ w.entry = f.entry ∧
            w.argAddr = f.argBase + BitVec.ofNat 64 (r.layer * f.strideLayer) + BitVec.ofNat 64 (i * f.strideCore))) ∧
    (s.seq? c id = some q → q.ring = true → s.scheduled c id = true →
      (((s.seqPages c id).all (fun p => p.pins == 0)) = true → let next (y : Seq) : Seq := { y with landed := false, passNo := (y.passNo + 1) % Nat.max 1 y.members.toNat }
        exec (.ringBlockLanded c id) s = .next (s.modSeq c id next)) ∧
      (((s.seqPages c id).all (fun p => p.pins == 0)) = false → exec (.ringBlockLanded c id) s = .next (s.modSeq c id (fun y => { y with landed := true })))) ∧
    (s.seq? c id = some q → q.ring = false → exec (.ringBlockLanded c id) s = .next s) ∧
    (∀ t, s.tables = [t] → t.st = .building → s.ctx? t.ctx = some x → leaderUp s (lowCore s x.part) = true →
      let src := srcTs (towerOf (Fin.ofNat 512 (lowCore s x.part)))
      let number : W64 := t.id.setWidth 64
      (t.builders = 0 → t.failed = false → let u : Table := { t with committed := !t.committed, version := t.version + 1, st := .draining, oldUsers := tableUsers s t.id t.version }
        exec (.tableBuilderDone t.id true) s =
          .next ({ s with tables := [u] }.log evTableCommit src 0 0 (some (x.num, x.part)) [number, u.version.setWidth 64])) ∧
      (t.failed = true → let u : Table := { t with st := .stable, builders := 0, failed := false }
        exec (.tableBuilderDone t.id false) s = .next ({ s with tables := [u] }.log evTableAbort src 0 0 (some (x.num, x.part)) [number])) ∧
      (t.builders ≠ 0 → exec (.tableBuilderDone t.id true) s = .next s)) ∧
    (∀ t, s.tables = [t] → exec (.tableDrained t.id) s =
      .next { s with tables := [if t.st = .draining ∧ t.oldUsers = 0 then { t with st := .stable } else t] })

/-- Pages between slices, the spillway and other frames (R232-R235, R276, R279, R292, R293): each step of a spill, of a fill and of a
migration, what it waits for and what cancels it. -/
def Obligations.PagesMoveBetweenTiers : Prop :=
  ∀ (s s' : State) (p : Page) (q : Seq) (k : KvCfg) (pool : Region) (c : CoreId) (u : UnitId) (row o : Nat), s.page? p.key = some p →
    let key := p.key
    let put (f : Page → Page) : Out := .next (s.modPage key f)
    let n := 128 * frameRows p.kfmt p.vfmt
    let back (y : Page) : Page := { y with st := .resident, clean := false, slot := 0, gen := y.gen + 1, copied := false }
    let away (y : Page) : Page := { y with st := .spilled, clean := false, gen := y.gen + 1, copied := false }
    (s.spillable p = true → s.tsUp p.core = true → s.spillPool key.ctx = some pool →
      (p.clean = true → exec (.spillPage key) s = put (fun y => { y with st := .spilling, gen := y.gen + 1, since := s.now, copied := true })) ∧
      (p.clean = false → frameRows p.kfmt p.vfmt ≤ pool.slot4k →
        (slotsOf pool).find? (fun o => !(((s.pages.filter Page.slotted).map (·.slot)).contains o)) = some o →
        exec (.spillPage key) s = put (fun y => { y with st := .spilling, gen := y.gen + 1, slot := o, since := s.now, copied := false }))) ∧
    (s.spillable p = false → exec (.spillPage key) s = .next s) ∧
    (p.st = .spilling → s.tsUp p.core = true → p.copied = true → exec (.spillCopyDone key) s = if p.pins = 0 then put away else .next s) ∧
    (p.st = .spilling → s.tsUp p.core = true → p.copied = false → ∀ port a, s.farTarget p.slot = some (port, a) →
      (s.farUp port = false → exec (.spillCopyDone key) s = .next (failSpill s p)) ∧
      (s.farUp port = true → localHeld s p.core p.unit = true → exec (.spillCopyDone key) s = .next s) ∧
      (s.farUp port = true → localHeld s p.core p.unit = false → p.pins = 0 → s.seq? key.ctx key.seqId = some q →
        let r := localRead (s.charge p.core q.part.val (8 + (localCoord p.unit 0).ch.val) (500 * n)) p.core p.unit (4096 * p.row) n
        (r.2.2 = true → exec (.spillCopyDone key) s = .next (cancelSpill r.1 key)) ∧
        (r.2.2 = false → ∃ t, exec (.spillCopyDone key) s = .next t ∧ t.dram = r.1.dram ∧ t.cores = s.cores ∧
          t.pages = updWhere (fun y => y.key == key) (fun y => away { y with copied := true, since := s.now }) r.1.pages))) ∧
    (exec (.spillPinTimeout key) s = if p.st = .spilling ∧ p.copied = true ∧ 0 < p.pins ∧ p.since + 1000000 ≤ s.now then put back else .next s) ∧
    (s.seq? key.ctx key.seqId = some q → s.kvOf key.ctx = some (k, pool) →
      (p.st = .spilled → s.scheduled key.ctx key.seqId = true → fillsFirst s p = false →
        allocFrame s k pool q key p.kfmt p.vfmt = some (s', c, u, row) → s.tsUp c = true → exec (.fillPage key) s =
          .next (s'.modPage key (fun y => { y with st := .filling, core := c, unit := u, row := row, gen := y.gen + 1, since := s.now }))) ∧
      (p.st ≠ .spilled → exec (.fillPage key) s = .next s) ∧
      (p.st = .filling → s.tsUp p.core = true → localHeld s p.core p.unit = false →
        let src := s.viewRead 0 2 p.slot (32 * n)
        let t := localWrite (src.1.charge p.core q.part.val (4 + (localCoord p.unit 0).ch.val) (500 * n)) p.core p.unit (4096 * p.row) src.2.1 (fun _ => false)
        let t := t.modPage key (fun y => { y with st := .resident, clean := true, gen := y.gen + 1 })
        let ok := headerMatches k.kvHeads p (leWords ((src.2.1.drop (headerAt p.kfmt p.vfmt)).take 256) 3)
        exec (.fillDone key []) s = .next (if ok then t else losePages t 0 (fun y => y.key == key))) ∧
      (p.st ≠ .filling → exec (.fillDone key []) s = .next s) ∧
      (p.st = .resident → p.migrate = none → (unusable s p).isSome = true → served s p = true → migrateTo s k pool q p = some (c, u, row) →
        exec (.pageMigrate key) s = put (fun y => { y with migrate := some (c, u, row, y.gen, s.now) })) ∧
      (unusable s p = none → exec (.pageMigrate key) s = .next s) ∧
      (∀ gen t0, p.migrate = some (c, u, row, gen, t0) → served s p = true → localHeld s p.core p.unit = false → localHeld s c u = false →
        (p.gen ≠ gen → exec (.pageMigrateCommit key) s = put (fun y => { y with migrate := none })) ∧
        (p.gen = gen → 0 < p.pins → exec (.pageMigrateCommit key) s = .next s) ∧
        (p.gen = gen → p.pins = 0 →
          let w := (s.charge p.core q.part.val (8 + (localCoord p.unit 0).ch.val) (500 * n)).charge c q.part.val (8 + (localCoord u 0).ch.val) (500 * n)
          let b := localBlocks w p.core p.unit (4096 * p.row) n
          let t := localWrite b.1 c u (4096 * row) (b.2.flatMap (·.1)) (fun i => (b.2.getD i ([], false)).2)
          headerMatches k.kvHeads p (leWords (((b.2.flatMap (·.1)).drop (headerAt p.kfmt p.vfmt)).take 24) 3) = true →
          exec (.pageMigrateCommit key) s = .next (migrated t p c u row)))) ∧
    (
      let m := migrated s p c u row
      m.page? key = some { p with core := c, unit := u, row := row, gen := p.gen + 1, migrate := none } ∧
      m.badRows = s.badRows ++ (List.range (frameRows p.kfmt p.vfmt)).map (fun i => (p.core.val, p.unit.val, p.row + i)) ∧ m.dram = s.dram) ∧
    (p.migrate = none → exec (.pageMigrateCommit key) s = .next s ∧ exec (.migrationPinTimeout key) s = .next s) ∧
    (∀ a, p.migrate = some a → exec (.migrationPinTimeout key) s =
      if 0 < p.pins ∧ a.2.2.2.2 + 1000000 ≤ s.now then put (fun y => { y with migrate := none }) else .next s) ∧
    (∀ x, s.ctx? key.ctx = some x → s.kvOf key.ctx = some (k, pool) → s.tsUp c = true → let rows := frameRows k.kfmt k.vfmt
      let freed := releaseReservations s key.ctx (· == c)
      (k.lowWater ≤ s.freeFrames pool c rows → exec (.lowWaterSpill key.ctx c) s = .next s) ∧
      (s.freeFrames pool c rows < k.lowWater → freed.victims x.part 0xFF (· == c) = [] → exec (.lowWaterSpill key.ctx c) s = .next freed) ∧
      (s.freeFrames pool c rows < k.lowWater → freed.victims x.part 0xFF (· == c) = [p] →
        freed.freeFrames pool c rows + (s.pages.filter (fun y => y.st == .spilling && y.core == c)).length < k.lowWater →
        exec (.lowWaterSpill key.ctx c) s = .next (startSpill freed p)))

/-! ## The setup register map (chapters 08, 12, 14, 17, 19) -/

/-- A function whose BAR0 can be written, with the MP and the SP running, outside SAFE. -/
def Sys2Proof.Claims.reaches (s : State) (f : FnId) : Prop :=
  barOpen s f = true ∧ s.err.safe = false ∧ (s.proc 0).st = .running ∧ (s.proc 1).st = .running

/-- A write that a register refuses: one record with its status, its offset and its value, and no other change (R15, R190). -/
def Sys2Proof.Claims.rejects (s : State) (src : Source) (st : BitVec 16) (off : Nat) (v : W32) : Out :=
  .next (s.log errCfgReject src 0 st none [BitVec.ofNat 64 off, v.setWidth 64])

/-- The module is in SAFE for a cause (Table 17.9): every function reads SAFE, islands are off, staged values are gone. -/
def Sys2Proof.Claims.safeBy (t : State) (cause : Nat) : Prop :=
  t.err.safe = true ∧ t.err.cause = cause ∧ t.fns.all (fun k => k.st == .safe) = true ∧ t.coreStore = [] ∧ t.pwr.nearBank = List.replicate 8 .off ∧
  t.mem.weirShadow = List.replicate 16 none ∧ t.thm.request = 255 ∧ t.pwr.effective = 900

/-- Registers that act when written (R172, R208, R308, R332, R394, R397, R401, R450, R456, R458): weir commits, sync requests, wakes,
hold-clears, dump and log acknowledgements, log selection, fence marks, image commits and the request of SAFE. -/
def Obligations.ActionRegistersAct : Prop :=
  ∀ (s : State) (f : FnId) (v : W32) (x : Ctx), reaches s 0 → reaches s f →
    let err (e : Err) : Out := .next { s with err := e }
    let p := bits v 0 4
    let fence : FenceId := { kind := bits v 28 4, index := bits v 19 9, sub := bits v 12 7 }
    let n := bits v 0 10
    (weirInvalid s (weirStaged s) = none →
      exec (.weirCommitGo 0) s = .next { s with mem := { s.mem with weir := weirStaged s, weirShadow := List.replicate 16 none } }) ∧
    (∀ i k, weirInvalid s (weirStaged s) = some (i, k) → exec (.weirCommitGo 0) s =
      .next ({ s with mem := { s.mem with weirShadow := List.replicate 16 none, cfgError := true } }.log weirCfgInvalid (srcIo 0) 0 0 none
        [BitVec.ofNat 64 i, BitVec.ofNat 64 k])) ∧
    (s.sync.open_.isSome = true → exec (.fwSyncReq 0 v) s = .next { s with sync := { s.sync with queued := some v } }) ∧
    (s.sync.open_ = none → ∃ t, exec (.fwSyncReq 0 v) s = .next t ∧ t.sync.open_ = some (v, s.sync.round) ∧ t.sync.round = s.sync.round + 1 ∧
      t.sync.lastAt = s.now ∧ t.cores = s.cores ∧ t.dram = s.dram) ∧
    ((s.fn f).st = .attached → v.getLsbD 8 = true → exec (.ringWake f v) s = .next (s.modFn f (fun k => { k with adminInterval := 1, adminPollAt := s.now }))) ∧
    ((s.fn f).st = .attached → v.getLsbD 8 = false → s.ctx? (Fin.ofNat 256 (bits v 0 8)) = some x →
      (x.fn = f → exec (.ringWake f v) s = .next (s.modCtx x.num (fun y => { y with interval := 1, nextPoll := s.now }))) ∧
      (x.fn ≠ f → exec (.ringWake f v) s = .next s)) ∧
    (2 ≤ p → p < 12 → (s.proc p).st = .heldDown → exec (.fwHoldClear 0 v) s =
      .next ((s.modProc p (fun y => { y with st := .restarting, restartTimes := [] })).log fwHoldCleared (srcProc p) (locProc p) 0 none [BitVec.ofNat 64 p])) ∧
    (p < 2 ∨ 12 ≤ p ∨ (s.proc p).st ≠ .heldDown → exec (.fwHoldClear 0 v) s = rejects s (srcIo 0) stCfgRange 0x80014 v) ∧
    (exec (.fwDumpAck 0 v) s = .next (s.modProc p (fun y => { y with
      dumps := y.dumps.set (bits v 4 1) { y.dumps.getD (bits v 4 1) Dump.reset with valid := false } }))) ∧
    (v.getLsbD 1 = false → exec (.fwImageCommit 0 v) s = .next { s with fw := { s.fw with next := v.getLsbD 0 } }) ∧
    (v.getLsbD 1 = true → s.fw.trial = true → let roll := if s.fw.running then s.fw.rollB else s.fw.rollA
      let fw : Fw := { s.fw with next := v.getLsbD 0, committed := s.fw.running, trial := false }
      let up := s.sec.rollback.ult roll
      let m7 := Config.shake256 (natLe 64 (s.mreg 7).toNat ++ Config.measured 7 [if s.sec.identityLost then 1 else 0, roll.toNat])
      let sec : Sec := { s.sec with rollback := if up then roll else s.sec.rollback, regs := if up then s.sec.regs.set 7 m7 else s.sec.regs }
      exec (.fwImageCommit 0 v) s = .next { s with fw := fw, sec := sec }) ∧
    (exec (.errLogAck 0 v) s = err { s.err with entries := s.err.entries.filter (fun r => decide (2 ^ 31 ≤ (v - r.index).toNat)) }) ∧
    (∀ r, s.err.entries[n]? = some r → exec (.errLogSel 0 v) s = err { s.err with sel := BitVec.ofNat 10 n, latch := logWords r false }) ∧
    (s.err.entries[n]? = none → exec (.errLogSel 0 v) s = err { s.err with sel := BitVec.ofNat 10 n, latch := List.replicate 16 0 }) ∧
    (fence.kind < 7 → s.err.fences.contains fence = true → s.err.marks.contains fence = false →
      exec (.errFenceClear 0 v) s = err { s.err with marks := s.err.marks ++ [fence] }) ∧
    (fence.kind < 7 → s.err.fences.contains fence = false → exec (.errFenceClear 0 v) s = rejects s srcMp stCfgRange 0x10014 v) ∧
    (7 ≤ fence.kind → exec (.errFenceClear 0 v) s = .next s) ∧
    (v.getLsbD 0 = false → exec (.errSafeReq 0 v) s = .next s) ∧
    (v.getLsbD 0 = true → ∃ t, exec (.errSafeReq 0 v) s = .next t ∧ safeBy t 13)

/-- Writes of the register map by class and field (R13-R16, R190, R478, R487-R491): a field in range takes its value, one out of range or locked
leaves the register and is recorded, a partial write is refused, staged weir values wait, unassigned offsets are counted.
The code test window (R207, R208): it opens on a free reserve row, and its five operations store and read data and check word as they stand. -/
def Obligations.RegistersAndTheCodeTestWindow : Prop :=
  (∀ (s : State) (v : W32) (be : BitVec 4) (off p : Nat) (w : Bool), reaches s 0 →
    let put (o : Nat) : Out := exec (.registerWrite 0 o 0xF v) s
    let count : Out := .next { s with err := { s.err with unmapped := satAdd s.err.unmapped 1 } }
    (5 ≤ bits v 0 8 → bits v 0 8 ≤ 40 → put 0x30004 = .next { s with mem := { s.mem with drift := BitVec.ofNat 8 (bits v 0 8) } }) ∧
    (bits v 0 8 < 5 ∨ 40 < bits v 0 8 → put 0x30004 = rejects s (srcIo 0) stCfgRange 0x30004 v) ∧
    (be ≠ 0xF → exec (.registerWrite 0 0x30004 be v) s = rejects s (srcIo 0) stCfgRange 0x30004 v) ∧
    (p < 16 → put (0x20000 + 4 * p) = .next { s with mem := { s.mem with weirShadow := s.mem.weirShadow.set p (some (weirOf v)) } }) ∧
    ((s.fn 0).st = .attached → bits v 12 20 ≠ bits (s.fn 0).hostLo 12 20 → put 0x1000 = rejects s (srcIo 0) stCfgLocked 0x1000 v) ∧
    (put 0x0008 = .next s) ∧
    (s.ctxs = [] → 1 ≤ bits v 0 6 → bits v 0 6 ≤ 32 → bits v 0 6 ≠ s.map.spread16m.toNat → ∃ t, exec (.spreadMapChange 0 v) s = .next t ∧
      t.map.spread16m = BitVec.ofNat 6 (bits v 0 6) ∧ t.map.epoch = s.map.epoch + 1 ∧ t.map.eraseSince = some s.now ∧ t.dram = [] ∧
      t.cores = s.cores ∧ t.regions = s.regions) ∧
    (s.ctxs ≠ [] → bits v 0 6 ≠ s.map.spread16m.toNat → exec (.spreadMapChange 0 v) s = rejects s srcMp stCfgLocked 0x30020 v) ∧
    (regAt 0 off = none → put off = count ∧ exec (.unmappedAccess 0 off w) s = count) ∧
    ((regAt 0 off).isSome = true → exec (.unmappedAccess 0 off w) s = .next s)) ∧
  (∀ (s : State), reaches s 0 →
    let b := testBlock s
    let u := s.charge b.1 16 (8 + b.2.ch.val) 500
    let d := s.blkData b.1 b.2
    let k := s.blkCheck b.1 b.2
    let done (t : State) (m : MemRegs) : Out := .next { t with mem := { m with ctBusy := true, ctOp := 0 } }
    let x := decodeFull d k
    let all : List Instr := [.codeTestWriteRaw 0, .codeTestWriteEncoded 0, .codeTestReadRaw 0, .codeTestReadFull 0, .codeTestReadActivation 0]
    (testRowFree s = true → exec (.codeTestEnable 0 1) s = .next { s with mem := { s.mem with ctEnable := true } }) ∧
    (testRowFree s = false → exec (.codeTestEnable 0 1) s =
      .next ({ s with mem := { s.mem with ctEnable := false } }.log errCfgReject (srcIo 0) 0 stCfgRange none [0x30100, 1])) ∧
    (exec (.codeTestEnable 0 0) s = .next { s with mem := { s.mem with ctEnable := false } }) ∧
    (s.mem.ctEnable = false ∨ s.mem.ctBusy = true → ∀ c ∈ all, ∃ v, exec c s = rejects s (srcIo 0) stCfgLocked 0x30110 v) ∧
    (s.mem.ctEnable = true → s.mem.ctBusy = false → s.chanHolds b.1 b.2.ch = true → ∀ c ∈ all, ∃ n : Nat, 1 ≤ n ∧ n ≤ 5 ∧
      exec c s = .next { s with mem := { s.mem with ctBusy := true, ctOp := BitVec.ofNat 3 n } }) ∧
    (s.mem.ctEnable = true → s.mem.ctBusy = false → s.chanHolds b.1 b.2.ch = false →
      exec (.codeTestWriteRaw 0) s = done (u.setBlk b.1 b.2 (testData s) s.mem.ctCheck) s.mem ∧
      exec (.codeTestWriteEncoded 0) s = done (u.setBlk b.1 b.2 (testData s) (checkWord (testData s))) s.mem ∧
      exec (.codeTestReadRaw 0) s = done u { s.mem with ctData := dataWords d, ctCheck := k } ∧
      (x = .clean → exec (.codeTestReadFull 0) s = done u { s.mem with ctData := dataWords d, ctSynd := syndrome d k, ctClass := 0, ctBit := 0 }) ∧
      (x = .uncorrectable → exec (.codeTestReadFull 0) s = done u { s.mem with
        ctData := dataWords (mended d x), ctSynd := syndrome d k, ctClass := 4, ctBit := BitVec.ofNat 9 ((mendedBit x).getD 0) }) ∧
      (∀ i, x = .dataBit i → exec (.codeTestReadFull 0) s = done u { s.mem with
        ctData := dataWords (mended d x), ctSynd := syndrome d k, ctClass := 1, ctBit := BitVec.ofNat 9 ((mendedBit x).getD 0) }) ∧
      exec (.codeTestReadActivation 0) s = done u { s.mem with
        ctData := dataWords d, ctBit := 0, ctClass := (if flagPoisoned k then 5 else if failingRows d k = 0 then 0 else 4),
        ctSynd := BitVec.ofNat 32 ((bits k 16 16 ^^^ 0x5A5A) * 2 ^ 16 + failingRows d k) }))

/-! ## Rings, functions and admin commands (chapter 12) -/

/-- A function whose admin ring is served, outside SAFE. -/
def Sys2Proof.Claims.serves12 (s : State) (f : FnId) : Prop := adminOpen s f = true ∧ s.err.safe = false

/-- Admin commands (R219, R273, R341-R348): what each checks, the status of its record, and what it creates, binds, frees or sets. -/
def Obligations.AdminCommandsComplete : Prop :=
  ∀ (s : State) (f : FnId) (seq : W32) (h k : HostRead) (ws ks : List W64) (cn : BitVec 8) (x : Ctx) (r : Region) (pn : BitVec 4)
    (first count : BitVec 16), serves12 s f →
    let b := ctxBlock ws
    let ends (t : State) (type : Byte) (st : BitVec 16) (tag : W64) : Out := .next (adminDone t f seq type st tag)
    let free := (List.range 256).filter (fun n => !(s.ctxs.any (fun x => x.num.val == n)))
    (32 ≤ ws.length → free ≠ [] → blockOk f ws = true →
      (b.kvAddr = 0 → ∃ n : CtxId, n.val ∈ free ∧ exec (.ctxCreate f seq (.words ws) k) s =
        ends { s with ctxs := s.ctxs ++ [newCtx n f b none s.now], free := s.free + 1 } 0x40 stOk (BitVec.ofNat 64 n.val)) ∧
      (b.kvAddr ≠ 0 → 8 ≤ ks.length → kvOk s b.part ks = true → ∃ n : CtxId, n.val ∈ free ∧ exec (.ctxCreate f seq (.words ws) (.words ks)) s =
        ends { s with ctxs := s.ctxs ++ [newCtx n f b (some (kvCfg ks)) s.now], free := s.free + 1 } 0x40 stOk (BitVec.ofNat 64 n.val)) ∧
      (b.kvAddr ≠ 0 → kvOk s b.part ks = false → exec (.ctxCreate f seq (.words ws) (.words ks)) s = ends s 0x40 stKvConfig 0)) ∧
    (32 ≤ ws.length → free ≠ [] → blockOk f ws = false → exec (.ctxCreate f seq (.words ws) k) s = ends s 0x40 stCtxInvalid 0) ∧
    (32 ≤ ws.length → free = [] → exec (.ctxCreate f seq (.words ws) k) s = ends s 0x40 stCtxFull 0) ∧
    (s.ctx? (Fin.ofNat 256 cn.toNat) = none → exec (.ctxDestroy f seq cn) s = ends s 0x41 stCtxInvalid 0 ∧
      exec (.ctxAdopt f seq cn h) s = ends s 0x42 stCtxInvalid 0 ∧ exec (.ctxReset f seq cn h) s = ends s 0x43 stCtxInvalid 0) ∧
    (s.ctx? (Fin.ofNat 256 cn.toNat) = some x → mayName f x.part = false → exec (.ctxDestroy f seq cn) s = ends s 0x41 stNotPermitted 0 ∧
      exec (.ctxAdopt f seq cn h) s = ends s 0x42 stNotPermitted 0 ∧ exec (.ctxReset f seq cn h) s = ends s 0x43 stNotPermitted 0) ∧
    (s.ctx? (Fin.ofNat 256 cn.toNat) = some x → mayName f x.part = true →
      (x.st = .open_ → ctxWorks s x.num = false → x.descs = [] → s.sched.steps = [] → s.sched.waiting = [] → s.cores = [] →
        s.regions.all (fun r => r.ctx != x.num) = true → ∃ t u, exec (.ctxDestroy f seq cn) s = .next t ∧ u.ctx? x.num = none ∧
          t = settleFlr (settleFlr (adminDone u f seq 0x41 stOk 0) x.fn) x.part ∧ u.seqs.all (fun q => q.ctx != x.num) = true ∧
          u.pages.all (fun p => p.key.ctx != x.num) = true ∧ u.tables.all (fun y => y.ctx != x.num) = true ∧ u.dram = s.dram) ∧
      (x.st = .parked → 32 ≤ ws.length → blockOk f ws = true → b.part = x.part →
        (b.firstSeq = x.lastFetched + 1 → exec (.ctxAdopt f seq cn (.words ws)) s =
          ends (s.modCtx x.num (fun y => bindCtx f b s.now { y with recs := y.recs.map (fun r => { r with held := true }) })) 0x42 stOk 0) ∧
        (b.firstSeq ≠ x.lastFetched + 1 → exec (.ctxAdopt f seq cn (.words ws)) s = ends s 0x42 stCtxInvalid 0) ∧
        (s.sched.steps = [] → s.sched.waiting = [] → s.cores = [] → exec (.ctxReset f seq cn (.words ws)) s =
          ends (s.modCtx x.num (fun y => bindCtx f b s.now { y with
            recs := [], descs := [], lastFetched := b.firstSeq - 1, lastCompleted := b.firstSeq - 1 })) 0x43 stOk 0)) ∧
      (x.st = .open_ → 32 ≤ ws.length → exec (.ctxAdopt f seq cn (.words ws)) s = ends s 0x42 stCtxBusy 0 ∧
        exec (.ctxReset f seq cn (.words ws)) s = ends s 0x43 stCtxBusy 0)) ∧
    (4 ≤ ws.length → let g := regionOf ws
      (mayName f g.part = false → exec (.regionCreate f seq (.words ws)) s = ends s 0x44 stNotPermitted 0) ∧
      (mayName f g.part = true → regionLegal ws = false ∨ regionFits s g = false → exec (.regionCreate f seq (.words ws)) s = ends s 0x44 stRegionRange 0) ∧
      (mayName f g.part = true → regionLegal ws = true → regionFits s g = true →
        let above := s.regions.any (fun y => regionsMeet g y && !(g.readOnly && y.readOnly))
        (above = true → exec (.regionCreate f seq (.words ws)) s = ends s 0x44 stRegionOverlap 0) ∧
        (above = false → 4096 ≤ s.regions.length → exec (.regionCreate f seq (.words ws)) s = ends s 0x44 stRegionFull 0) ∧
        (above = false → s.regions.length < 4096 → ∃ id : W32, exec (.regionCreate f seq (.words ws)) s =
          ends { s with regions := s.regions ++ [{ g with id := id }], free := s.free + 1 } 0x44 stOk (id.setWidth 64) ∧
          s.regions.all (fun y => y.id != id) = true))) ∧
    (s.regions.find? (fun y => y.id == r.id) = none → exec (.regionDestroy f seq r.id) s = ends s 0x45 stRegionRange 0) ∧
    (s.regions.find? (fun y => y.id == r.id) = some r → mayName f r.part = true →
      (ctxWorks s r.ctx = true → exec (.regionDestroy f seq r.id) s = ends s 0x45 stCtxBusy 0) ∧
      (ctxWorks s r.ctx = false → exec (.regionDestroy f seq r.id) s =
        ends { zeroLines s r with regions := (zeroLines s r).regions.filter (fun y => y.id != r.id) } 0x45 stOk 0)) ∧
    (f ≠ 0 → exec (.partSet f seq pn h first count) s = ends s 0x46 stNotPermitted 0) ∧
    (f = 0 → 8 ≤ ws.length → first.toNat + count.toNat ≤ 4096 → partWorks s (Fin.ofNat 16 pn.toNat) = false → s.parts.length = 16 → ∃ t,
      exec (.partSet f seq pn (.words ws) first count) s = ends t 0x46 stOk 0 ∧
      t.part (Fin.ofNat 16 pn.toNat) = { cores := bitmapCores s ws, semFirst := first.toNat, semCount := count.toNat } ∧
      (∀ q : PartId, q ≠ Fin.ofNat 16 pn.toNat → (t.part q).cores = (s.part q).cores.filter (fun c => !((bitmapCores s ws).contains c))) ∧
      (∀ i : Nat, first.toNat ≤ i % 4096 → i % 4096 < first.toNat + count.toNat → t.sem i = 0) ∧ t.cores = s.cores ∧ t.dram = s.dram) ∧
    (f = 0 → 8 ≤ ws.length → 4096 < first.toNat + count.toNat → exec (.partSet f seq pn (.words ws) first count) s = ends s 0x46 stDescInvalid 0)

/-- Doorbells, fetches, completions and interrupts (R323, R330-R334, R338, R339): what a poll, a fetch, a write of a record, the moderation timer and
an unmasking change. -/
def Obligations.RingsFetchAndComplete : Prop :=
  ∀ (s : State) (c : CtxId) (x : Ctx) (tail head : W32) (ws : List W64) (r : Rec) (rest : List Rec) (f : FnId) (v : Fin 64), s.ctx? c = some x →
    let fn := s.fn x.fn
    let due : Prop := x.st = .open_ ∧ s.ringRuns x.fn = true ∧ x.nextPoll ≤ s.now
    let fits : Prop := (tail - x.sqHead).toNat ≤ 2 ^ x.sqLog2 ∧ (head - x.cqHead).toNat ≤ (x.cqTail - x.cqHead).toNat
    let seq : W32 := (ws.getD 0 0).setWidth 32
    let at_ := x.cqBase.toNat + 32 * (x.cqTail.toNat % 2 ^ x.cqLog2)
    let bytes := (recWords r (x.cqTail.toNat / 2 ^ x.cqLog2 % 2 == 0)).flatMap (fun w => natLe 8 w.toNat)
    (due → fits → ∃ t y, exec (.doorbellPoll c tail head) s = .next t ∧ t.ctx? c = some y ∧ y.sqTail = tail ∧ y.cqHead = head ∧ s.now ≤ y.nextPoll ∧
      y.interval = (if tail ≠ x.sqTail then 1 else nextInterval fn.pollMax.toNat x.interval) ∧ y.st = .open_ ∧ y.descs = x.descs ∧
      t.hostMem = s.hostMem ∧ t.cores = s.cores ∧ t.dram = s.dram) ∧
    (due → ¬fits → ∃ t y, exec (.doorbellPoll c tail head) s = .next t ∧ t.ctx? c = some y ∧ y.st = .error ∧ y.errStatus = stRingOverrun ∧
      t.hostMem = s.hostMem ∧ t.dram = s.dram) ∧
    (¬due → exec (.doorbellPoll c tail head) s = .next s) ∧
    (x.st = .open_ → s.ringRuns x.fn = true → x.sqHead ≠ x.sqTail → x.load + (descCount ws).getD 1 ≤ 4096 →
      (seq ≠ x.nextSeq → ∃ t y, exec (.descFetch c ws) s = .next t ∧ t.ctx? c = some y ∧ y.st = .error ∧ y.errStatus = stRingSeq ∧ y.errSeq = seq ∧
        t.hostMem = s.hostMem) ∧
      (∀ n, seq = x.nextSeq → descCount ws = some n → ∃ t y, exec (.descFetch c ws) s = .next t ∧ t.ctx? c = some y ∧
        y.descs = x.descs ++ [descOf ws n none] ∧ y.sqHead = x.sqHead + 1 ∧ y.nextSeq = x.nextSeq + 1 ∧ y.lastFetched = seq ∧ y.recs = x.recs ∧
        t.hostMem = memWriteList zeroByte s.hostMem (x.slot.toNat + 32) (natLe 8 (x.sqHead + 1).toNat) ∧ t.cores = s.cores ∧ t.dram = s.dram)) ∧
    (x.sqHead = x.sqTail → exec (.descFetch c ws) s = .next s) ∧
    (fn.attached = true → x.st = .open_ → (x.cqTail - x.cqHead).toNat < 2 ^ x.cqLog2 → x.recs = r :: rest → x.timerUs = 0 → s.memWf → ∃ t y,
      exec (.completionWrite c) s = .next t ∧ t.ctx? c = some y ∧ y.recs = rest ∧ y.cqTail = x.cqTail + 1 ∧ y.unsignalled = x.unsignalled + 1 ∧
      t.msix = s.msix ∧ (∀ i, memRead zeroByte t.hostMem i = if at_ ≤ i ∧ i < at_ + 32 then bytes.getD (i - at_) 0 else memRead zeroByte s.hostMem i) ∧
      t.cores = s.cores ∧ t.dram = s.dram) ∧
    (fn.attached = true → x.st = .open_ → (x.cqTail - x.cqHead).toNat < 2 ^ x.cqLog2 → x.recs = r :: rest → x.timerUs ≠ 0 →
      r.irq = true → fn.masked.getLsbD x.vector = false → ∃ t y, exec (.completionWrite c) s = .next t ∧ t.ctx? c = some y ∧ y.recs = rest ∧
        y.unsignalled = 0 ∧ t.msix = s.msix ++ [(x.fn.val, x.vector)]) ∧
    (2 ^ x.cqLog2 ≤ (x.cqTail - x.cqHead).toNat ∨ x.recs ++ x.notices = [] → exec (.completionWrite c) s = .next s) ∧
    (x.timerUs ≠ 0 → 0 < x.unsignalled → x.firstUnsignalled + 1000 * x.timerUs ≤ s.now → fn.attached = true →
      exec (.moderationTimer c) s = .next ((s.modCtx c (fun y => { y with unsignalled := 0 })).signal x.fn x.vector)) ∧
    (s.now < x.firstUnsignalled + 1000 * x.timerUs → exec (.moderationTimer c) s = .next s) ∧
    (f = 0 ∨ (v.val < 16 ∧ (s.fn f).enabled = true) → let b := BitVec.ofNat 64 (2 ^ v.val)
      ((s.fn f).pba.getLsbD v.val = false ∨ (s.fn f).attached = false → exec (.msixUnmask f v) s = .next (s.modFn f (fun k => { k with masked := k.masked &&& ~~~b }))) ∧
      ((s.fn f).pba.getLsbD v.val = true → (s.fn f).attached = true → f.val < s.fns.length → ∃ t, exec (.msixUnmask f v) s = .next t ∧
        t.msix = s.msix ++ [(f.val, v.val)] ∧ (t.fn f).masked = (s.fn f).masked &&& ~~~b ∧ (t.fn f).pba = (s.fn f).pba &&& ~~~b ∧ t.hostMem = s.hostMem)) ∧
    (f ≠ 0 → 16 ≤ v.val ∨ (s.fn f).enabled = false → exec (.msixUnmask f v) s = .next s)

/-- Hosts that attach, are lost and come back (R324-R327, R344-R348): the hello and its reply, heartbeats, parking, function resets and
virtual functions. -/
def Obligations.HostsComeAndGo : Prop :=
  ∀ (s : State) (f : FnId) (ws : List W64) (h : HostRead) (w : W64) (c : CtxId) (x : Ctx) (n : Fin 16), s.fns.length = 16 → s.mpUp = true →
    let k := s.fn f
    let major := bits (ws.getD 0 0) 24 8
    (k.enabled = true → k.st = .ready → k.pendingHello = false → k.flr = false →
      (helloOk f ws = true → major = 2 → s.ctxsOf f = [] → ∃ t, exec (.ringHelloGo f (.words ws)) s = .next t ∧ (t.fn f).st = .attached ∧
        (t.fn f).helloCount = k.helloCount + 1 ∧ (t.fn f).busy = false ∧ (t.fn f).adminSq = ws.getD 1 0 ∧ (t.fn f).adminCq = ws.getD 2 0 ∧
        (t.fn f).heartbeatMs.toNat = (if bits (ws.getD 0 0) 0 16 = 0 then 100 else bits (ws.getD 0 0) 0 16) ∧
        (t.fn f).agreedMinor.toNat = Nat.min (bits (ws.getD 0 0) 16 8) 3 ∧ (∀ g, g ≠ f → t.fn g = s.fn g) ∧ t.ctxs = s.ctxs ∧ t.dram = s.dram ∧ t.cores = s.cores) ∧
      (helloOk f ws = false ∨ major ≠ 2 → ∃ t, exec (.ringHelloGo f (.words ws)) s = .next t ∧ (t.fn f).st = .refused ∧
        (t.fn f).helloCount = k.helloCount ∧ (t.fn f).busy = false ∧ (∀ g, g ≠ f → t.fn g = s.fn g) ∧ t.ctxs = s.ctxs ∧ t.dram = s.dram) ∧
      (∃ t, exec (.ringHelloGo f .failed) s = .next t ∧ (t.fn f).st = .lost)) ∧
    (k.pendingHello = true ∨ k.flr = true ∨ k.enabled = false → exec (.ringHelloGo f h) s = .next s) ∧
    (k.st = .attached → k.beatAt + k.heartbeatMs.toNat * 1000000 ≤ s.now →
      (exec (.heartbeatCheck f .failed) s = .next (loseHost s f 1)) ∧
      (k.beatWord ≠ some w → exec (.heartbeatCheck f (.words [w])) s =
        .next (s.modFn f (fun y => { y with beatWord := some w, beatSame := 0, beatAt := s.now }))) ∧
      (k.beatWord = some w → k.beatSame < 2 → exec (.heartbeatCheck f (.words [w])) s =
        .next (s.modFn f (fun y => { y with beatWord := some w, beatSame := k.beatSame + 1, beatAt := s.now }))) ∧
      (k.beatWord = some w → 2 ≤ k.beatSame → ∃ t, exec (.heartbeatCheck f (.words [w])) s = .next t ∧ (t.fn f).st = .lost)) ∧
    (s.now < k.beatAt + k.heartbeatMs.toNat * 1000000 → exec (.heartbeatCheck f h) s = .next s) ∧
    (k.st = .attached → exec (.hostLost f) s = .next (loseHost s f 2)) ∧
    (k.st = .attached → (s.ctxs.map (·.num)).Nodup → ∀ cause, let t := loseHost s f cause
      (t.fn f).st = .lost ∧ (∀ g, g ≠ f → t.fn g = s.fn g) ∧ t.ctxs.map (·.num) = s.ctxs.map (·.num) ∧ t.dram = s.dram ∧ t.hostMem = s.hostMem ∧
      ∀ y ∈ t.ctxsOf f, y.recs.all (fun r => r.held) = true ∧ y.descs.all (fun d => d.type.toNat != 3) = true) ∧
    (k.attached = false → exec (.hostLost f) s = .next s) ∧
    (∃ t, exec .pcieLinkDown s = .next t ∧ ∀ g : FnId, (s.fn g).st = .attached → (t.fn g).st = .lost) ∧
    (s.ctx? c = some x → x.st = .open_ → x.net = false → (s.fn x.fn).isLost = true → x.descs = [] → (s.fn x.fn).pendingHello = false →
      exec (.contextPark c) s = .next (s.modCtx c (fun y => { y with st := .parked }))) ∧
    (s.ctx? c = some x → x.descs ≠ [] → exec (.contextPark c) s = .next s) ∧
    (k.enabled = true → k.st = .ready → s.ctxs.all (fun y => y.part != f) = true → ∃ t, exec (.flr f) s = .next t ∧
      (t.fn f).st = .ready ∧ (t.fn f).enabled = true ∧ (t.fn f).flr = false ∧ (t.fn f).helloCount = k.helloCount ∧ (t.fn f).hostLo = 0 ∧
      (∀ i, let q := s.part f
        q.semFirst ≤ i % 4096 → i % 4096 < q.semFirst + q.semCount → t.sem i = 0) ∧ t.ctxs = s.ctxs ∧ t.dram = s.dram) ∧
    (k.enabled = false → exec (.flr f) s = .next s) ∧
    (s.start.phase = .service → s.err.safe = false → 0 < n.val → ∃ t, exec (.vfEnable n) s = .next t ∧
      (∀ g : FnId, 1 ≤ g.val → g.val ≤ n.val → (t.fn g).enabled = true) ∧
      (∀ g : FnId, g.val = 0 ∨ n.val < g.val → t.fn g = s.fn g) ∧
      (∀ g : FnId, 1 ≤ g.val → g.val ≤ n.val → (s.fn g).enabled = false → (t.fn g).st = .ready) ∧ t.ctxs = s.ctxs) ∧
    (s.start.phase = .service → s.ctxs = [] → ∃ t, exec (.vfEnable 0) s = .next t ∧ ∀ g : FnId, g ≠ 0 → (t.fn g).enabled = false) ∧
    (s.start.phase ≠ .service → exec (.vfEnable n) s = .next s)

/-! ## Clocks, links and towers (chapter 11) -/

/-- A link in service whose next flit a die receives. -/
def Sys2Proof.Claims.inOrder (s : State) (l : LinkId) (rev : Bool) (f : Flit) : Prop :=
  l.val < s.links.length ∧ (s.link l).st = 1 ∧ f.seqNo = ((s.link l).dir rev).recvSeq

/-- Flits, replay, training and lane failure (R310-R316): the next flit in sequence is taken, acknowledges and returns credits, one out of
sequence is discarded; the sixteenth bad CRC in a row asks for diagnosis; training and quiescing set oxbows and widths. -/
def Obligations.LinksCarryFlits : Prop :=
  ∀ (s : State) (l : LinkId) (rev : Bool) (f : Flit) (bad : List (Fin 66)) (errs : List (Fin 66 × Nat)) (lane : Fin 66),
    let k := s.link l
    let d := k.dir rev
    let e := linkEnds l
    let locked : Prop := (s.clk (Fin.ofNat 10 e.1)).locked = true ∧ (s.clk (Fin.ofNat 10 e.2)).locked = true
    (inOrder s l rev f → f.dest.val = receiver l rev → ∃ t, exec (.flitReceive l rev f) s = .next t ∧
      ((t.link l).dir rev).recvSeq = d.recvSeq + 1 ∧ ((t.link l).dir rev).delivered = d.delivered ++ [f] ∧ ((t.link l).dir rev).fails = 0 ∧
      ((t.link l).dir rev).discarding = false ∧ ((t.link l).dir (!rev)).credits = (k.dir (!rev)).credits + f.credits.toNat ∧
      ((t.link l).dir (!rev)).replay = ((k.dir (!rev)).acked f.ackSeq).replay ∧ (∀ m, m ≠ l → t.link m = s.link m) ∧
      t = { s with links := t.links }) ∧
    (inOrder s l rev f → f.dest.val ≠ receiver l rev → ∀ m, nextLink s (receiver l rev) f.dest.val = some m → m ≠ l → m.val < s.links.length →
      let out := sendsRev m (receiver l rev)
      (512 ≤ ((s.link m).dir out).replay.length → exec (.flitReceive l rev f) s = .next s) ∧
      (((s.link m).dir out).replay.length < 512 → ∃ t, exec (.flitReceive l rev f) s = .next t ∧
        ((t.link l).dir rev).recvSeq = d.recvSeq + 1 ∧ ((t.link l).dir rev).delivered = d.delivered ∧
        ((t.link m).dir out).replay = ((s.link m).dir out).replay ++ [{ f with seqNo := ((s.link m).dir out).sendSeq }] ∧
        ((t.link m).dir out).sendSeq = ((s.link m).dir out).sendSeq + 1 ∧ t = { s with links := t.links })) ∧
    (k.st ≠ 1 ∨ f.seqNo ≠ d.recvSeq → exec (.flitReceive l rev f) s = .next s ∧ exec (.flitCrcError l rev f.seqNo) s = .next s) ∧
    (inOrder s l rev f → ∃ t, exec (.flitCrcError l rev f.seqNo) s = .next t ∧ ((t.link l).dir rev).discarding = true ∧
      ((t.link l).dir rev).fails = d.fails + 1 ∧ ((t.link l).dir rev).replays = d.replays + 1 ∧ ((t.link l).dir rev).recvSeq = d.recvSeq ∧
      (t.link l).diagnose = (k.diagnose || decide (16 ≤ d.fails + 1)) ∧ t = { s with links := t.links }) ∧
    (l.val < s.links.length → k.st = 0 → locked → k.width = 0 → ∃ t, exec (.linkTrain l bad) s = .next t ∧
      (t.link l).width = widthOf (halfDead bad 0) (halfDead bad 1) ∧ (t.link l).st = (if halfDead bad 0 && halfDead bad 1 then 3 else 1) ∧
      (t.link l).oxA = oxbow bad 0 ∧ (t.link l).oxB = oxbow bad 1 ∧ (∀ m, m ≠ l → t.link m = s.link m)) ∧
    (k.st ≠ 0 ∨ ¬locked → exec (.linkTrain l bad) s = .next s) ∧
    (l.val < s.links.length → k.st = 1 → k.diagnose = false → k.windowAt + 1000000 ≤ s.now → k.fwd.replays ≤ s.err.linkThresh.toNat →
      k.rev.replays ≤ s.err.linkThresh.toNat → ∃ t, exec (.linkReplayWindow l errs) s = .next t ∧ (t.link l).fwd.replays = 0 ∧
      (t.link l).rev.replays = 0 ∧ (t.link l).fwd.lastReplays = k.fwd.replays ∧ (t.link l).rev.lastReplays = k.rev.replays ∧
      (t.link l).windowAt = s.now ∧ (t.link l).named = k.named ∧ (t.link l).quiesceReq = k.quiesceReq ∧ t = { s with links := t.links }) ∧
    (l.val < s.links.length → k.st = 1 → k.diagnose = true → namedLane errs = some lane → ∃ t, exec (.linkReplayWindow l errs) s = .next t ∧
      (t.link l).named = some lane ∧ (t.link l).quiesceReq = true ∧ (t.link l).diagnose = false ∧ (t.link l).st = 1) ∧
    (k.st = 1 → k.diagnose = false → s.now < k.windowAt + 1000000 → exec (.linkReplayWindow l errs) s = .next s) ∧
    (k.quiesceReq = false → exec (.linkQuiesce l) s = .next s) ∧
    (l.val < s.links.length → k.named = some lane → k.quiesceReq = true → k.fwd.recvSeq = k.fwd.sendSeq → k.rev.recvSeq = k.rev.sendSeq → k.st = 2 →
      (¬locked → exec (.linkQuiesce l) s = .next s) ∧
      (locked → lane.val < 32 → k.spareA = false → ∃ t, exec (.linkQuiesce l) s = .next t ∧ (t.link l).st = 1 ∧ (t.link l).oxA = lane.val ∧
        (t.link l).spareA = true ∧ (t.link l).width = k.width ∧ (t.link l).named = none ∧ (t.link l).quiesceReq = false ∧ (∀ m, m ≠ l → t.link m = s.link m)) ∧
      (locked → lane.val < 32 → k.spareA = true → k.width = 0 → ∃ t, exec (.linkQuiesce l) s = .next t ∧ (t.link l).st = 1 ∧ (t.link l).width = 2 ∧
        (t.link l).named = none))

/-- Clock loops and sync rounds (R305, R308): an unlocked loop is recorded and its links retrain when it relocks within 1 ms; beyond that a base die
fences its tower and an IO die ends in SAFE; a round opens with a tag, is answered by every source and closes.
Tower fences (R317, R318): the MP fences a tower for a dead link, a lost lock or a stage fault; its cores leave the partitions, an epoch
change is queued, and a second tower ends in SAFE. -/
def Obligations.ClocksRoundsAndTowerFences : Prop :=
  (∀ (s : State) (d : DieId) (tag : W32) (n t0 : Nat), d.val < s.clks.length →
    let down : DieClk := { locked := false, unlockedAt := some s.now }
    ((s.clk d).locked = true → exec (.clockUnlock d) s =
      .next ({ s with clks := s.clks.set d.val down }.log evClkUnlock (srcDie d) (locDie d.val) 0 none [BitVec.ofNat 64 d.val])) ∧
    ((s.clk d).locked = false → exec (.clockUnlock d) s = .next s) ∧
    ((s.clk d).locked = false → (s.clk d).unlockedAt = some t0 → s.now ≤ t0 + 1000000 → s.links.length = 14 → ∃ t, exec (.clockRelock d) s = .next t ∧
      (t.clk d).locked = true ∧ (t.clk d).unlockedAt = none ∧
      (∀ l, touches l d.val = true → (s.link l).st ≠ 3 → (t.link l).st = 0) ∧ (∀ l, touches l d.val = false ∨ (s.link l).st = 3 → t.link l = s.link l) ∧
      t.cores = s.cores ∧ t.err = s.err) ∧
    ((s.clk d).unlockedAt = some t0 → t0 + 1000000 < s.now → exec (.clockRelock d) s = .next s) ∧
    (unlockedLong s d = false → exec (.clockUnlockTimeout d) s = .next s) ∧
    (unlockedLong s d = true → 8 ≤ d.val → s.err.safe = false → ∃ t, exec (.clockUnlockTimeout d) s = .next t ∧ safeBy t 6) ∧
    (unlockedLong s d = true → d.val < 8 → allDies.all (fun x => !(s.clk x).locked) = false → s.fencedTowers = [] → s.err.safe = false → ∃ t,
      exec (.clockUnlockTimeout d) s = .next t ∧ t.fencedTowers = [d.val] ∧ t.isFenced 5 d.val 0 = true ∧
      ∀ c : CoreId, (towerOf c).val = d.val → t.parts.all (fun p => !(p.cores.contains c.val)) = true) ∧
    (s.mpUp = true → s.sync.open_ = none → s.sync.queued = some tag → ∃ t, exec .syncRound s = .next t ∧ t.sync.open_ = some (tag, s.sync.round) ∧
      t.sync.round = s.sync.round + 1 ∧ t.sync.queued = none ∧ t.sync.lastAt = s.now ∧ t.cores = s.cores ∧ t.dram = s.dram) ∧
    (s.mpUp = true → s.sync.open_ = none → s.sync.queued = none → s.sync.lastAt + s.sync.periodMs.toNat * 1000000 ≤ s.now → ∃ t,
      exec .syncRound s = .next t ∧ t.sync.open_ = some (0, s.sync.round) ∧ t.sync.round = s.sync.round + 1 ∧ t.sync.lastAt = s.now) ∧
    (s.sync.open_.isSome = true ∨ s.mpUp = false → exec .syncRound s = .next s) ∧
    (s.mpUp = true → s.sync.open_ = some (tag, n) → hasRoom s srcMp → ∃ t, exec .syncRoundClose s = .next t ∧ t.sync = { s.sync with open_ := none } ∧
      reports t srcMp { code := Config.syncCode 2, severity := 0 } ∧ t.cores = s.cores) ∧
    (s.sync.open_ = none → exec .syncRoundClose s = .next s)) ∧
  (∀ (s : State) (t : TowerId) (cause : TowerFenceCause),
    let due : Prop := s.mpUp = true ∧ fenceDue s t cause = true ∧ s.err.safe = false
    (¬(s.mpUp = true ∧ fenceDue s t cause = true) → exec (.towerFence t cause) s = .next s) ∧
    (s.fencedTowers.contains t.val = true → exec (.towerFence t cause) s = .next s) ∧
    (due → s.fencedTowers ≠ [] → s.fencedTowers.contains t.val = false → ∃ u, exec (.towerFence t cause) s = .next u ∧ safeBy u 8) ∧
    (due → s.fencedTowers = [] → s.cores = [] → s.regions = [] → s.pages = [] → s.net.colls = [] → ∃ u, exec (.towerFence t cause) s = .next u ∧
      u.fencedTowers = [t.val] ∧ u.isFenced 5 t.val 0 = true ∧ u.err.safe = false ∧
      (∀ p ∈ u.parts, ∀ n ∈ p.cores, n / 64 ≠ t.val) ∧
      (∃ x, u.map.queue = s.map.queue ++ [x] ∧ x.cause = .towerFence ∧ x.tower = some t) ∧ u.dram = s.dram ∧ u.coreStore = s.coreStore))

/-! ## Ports, the transport, collectives (chapter 13) -/

/-- A port in service with its NP running, on a module with its fabric address. -/
def Sys2Proof.Claims.portUp14 (s : State) (p : PortId) : Prop :=
  p.val < s.net.ports.length ∧ s.serving = true ∧ s.portOn p = true ∧ s.portNp p = true ∧ (s.port p).st = 2

/-- A packet that reaches the transport through a port: no secure channel is needed, the packet is this module's. -/
def Sys2Proof.Claims.arrives (s : State) (p : PortId) (pk : Packet) : Prop :=
  portUp14 s p ∧ s.onFabric = true ∧ s.needsSec p = false ∧ pk.dstModule = s.net.regs.module

/-- The one connection of the module, open to the sender of a packet. -/
def Sys2Proof.Claims.onlyConn (s : State) (pk : Packet) (c : Conn) : Prop :=
  s.net.conns = [c] ∧ c.num = pk.conn ∧ c.peer = pk.srcModule ∧ c.st = 2

/-- A packet was put on the wire last, of a type, on a port, for a connection of a peer. -/
def Sys2Proof.Claims.sent (s t : State) (type : Nat) (port : Nat) (conn : W32) (a : W64) : Prop :=
  ∃ x, t.net.out = s.net.out ++ [x] ∧ x.type = type ∧ x.port = port ∧ x.conn = conn ∧ x.a = a

/-- Module ports (R352-R358): training, link state, the announcement, address resolution, secure channels, pauses and discarded frames. -/
def Obligations.PortsTrainJoinAndSecure : Prop :=
  ∀ (s : State) (p : PortId) (k : AddrFrame) (prio : Fin 8) (pause b : Bool), p.val < s.net.ports.length →
    let x := s.port p
    let lane := (if s.portDie p = some 0 then s.net.regs.laneA else s.net.regs.laneB).toNat
    let bit : BitVec 8 := BitVec.ofNat 8 (2 ^ prio.val)
    let put (f : Port → Port) : Out := .next (s.modPort p f)
    (s.serving = true → s.portOn p = true → x.st = 0 → s.portNp p = true →
      (lane = 1 → exec (.portTrain p b true) s = put (fun y => { y with st := 1, slow := true })) ∧
      (lane = 0 → exec (.portTrain p true true) s = put (fun y => { y with st := 1, slow := false })) ∧
      (lane = 0 → ∃ t, exec (.portTrain p false b) s = .next t ∧ t.port p = { x with fails400 := x.fails400 + 1 } ∧ t.cores = s.cores) ∧
      (lane = 2 → x.fails400 < 3 → exec (.portTrain p true false) s = put (fun y => { y with fails400 := y.fails400 + 1 })) ∧
      (lane = 2 → 3 ≤ x.fails400 → exec (.portTrain p true true) s = put (fun y => { y with st := 1, slow := true }))) ∧
    (x.st ≠ 0 → exec (.portTrain p b pause) s = .next s) ∧
    (s.serving = true → s.portOn p = true → x.st = 1 → x.announced = false → ∃ t, exec (.portLinkUp p) s = .next t ∧
      t.port p = { x with st := 2, speed := portSpeed s p x.slow } ∧ (∀ q, q ≠ p → t.port q = s.port q) ∧ t.net.out = s.net.out) ∧
    (x.st ≠ 1 → exec (.portLinkUp p) s = .next s) ∧
    (x.st ≠ 0 → ∃ t, exec (.portLinkDown p) s = .next t ∧
      t.port p = { x with st := 0, speed := 0, spraying := false, secure := false, announced := false } ∧ (∀ q, q ≠ p → t.port q = s.port q)) ∧
    (x.st = 0 → exec (.portLinkDown p) s = .next s) ∧
    (portUp14 s p → s.onFabric = true → x.announced = false → x.secure = false → ∃ t, exec (.fabricAnnounce p) s = .next t ∧
      t.port p = { x with announced := true, spraying := x.spraying || !s.needsSec p } ∧ t.net.out.map (·.type) = s.net.out.map (·.type) ++ [0x100, 0x101]) ∧
    (s.onFabric = false → exec (.fabricAnnounce p) s = .next s) ∧
    (portUp14 s p → s.onFabric = true → s.net.regs.ipv6 = false →
      (∃ t, exec (.addressResolution p .arp) s = .next t ∧ sent s t 0x102 p.val 0 0) ∧
      (∃ t, exec (.addressResolution p .icmpEcho) s = .next t ∧ sent s t 0x104 p.val 0 0) ∧
      (∃ t, exec (.addressResolution p .neighborDiscovery) s = .next t ∧ t.net.dropped = s.net.dropped + 1 ∧ t.net.out = s.net.out)) ∧
    (portUp14 s p → s.onFabric = false → ∃ t, exec (.addressResolution p k) s = .next t ∧ t.net.dropped = s.net.dropped + 1 ∧ t.net.out = s.net.out) ∧
    (portUp14 s p → s.onFabric = true → s.needsSec p = true → x.ckn.isSome = true → x.secure = false → ∃ t, exec (.mkaFrame p true) s = .next t ∧
      t.port p = { x with secure := true, sakGen := x.sakGen + 1, pn := 0, spraying := x.spraying || x.announced } ∧ t.net.out = s.net.out) ∧
    (s.onFabric = true → x.ckn = none → exec (.mkaFrame p b) s = .next s) ∧
    (portUp14 s p → x.secure = true → exec (.secureAssociationKeyRotation p) s = put (fun y => { y with sakGen := y.sakGen + 1, pn := 0 })) ∧
    (x.secure = false → exec (.secureAssociationKeyRotation p) s = .next s) ∧
    (portUp14 s p → exec (.priorityFlowControlFrame p prio pause) s =
      put (fun y => { y with paused := if pause then y.paused ||| bit else y.paused &&& ~~~bit })) ∧
    (portUp14 s p → s.needsSec p = false → ∃ t, exec (.discardedFrame p) s = .next t ∧ t.port p = { x with discarded := x.discarded + 1 } ∧
      t.net.dropped = s.net.dropped + 1 ∧ t.err = s.err ∧ t.net.out = s.net.out) ∧
    (x.st ≠ 2 → exec (.priorityFlowControlFrame p prio pause) s = .next s ∧ exec (.discardedFrame p) s = .next s ∧
      exec (.addressResolution p k) s = .next s ∧ exec (.mkaFrame p b) s = .next s ∧ exec (.fabricAnnounce p) s = .next s)

/-- Connections and their packets (R359-R367): opening, retrying and closing; data, submissions and completions accepted in order; acknowledgement,
probing, retransmission and the window. -/
def Obligations.ConnectionsCarryPackets : Prop :=
  ∀ (s : State) (p : PortId) (pk : Packet) (c : Conn) (x : Ctx) (ws : List W64) (q : Pair) (o : Sent) (n : Nat),
    let inOrder : Prop := arrives s p pk ∧ onlyConn s pk c ∧ pk.psn = c.recvPsn ∧ c.recvAhead = [] ∧ c.unacked < 7
    let took (t : State) : Prop := ∃ y, t.conn? c.num = some y ∧ y.recvPsn = c.recvPsn + 1 ∧ y.unacked = c.unacked + 1 ∧ y.lastTs = pk.ts ∧ y.lastUse = s.now ∧
      y.ceSeen = c.ceSeen + (if pk.ce then 1 else 0)
    let dropped : Prop := ∀ i ∈ ([.ack p pk, .probe p pk, .data p pk, .submit p pk, .complete p pk, .pace p pk, .withdraw p pk, .close p pk] : List Instr),
      ∃ t, exec i s = .next t ∧ t.net.dropped = s.net.dropped + 1 ∧ t.net.conns = s.net.conns ∧ t.net.out = s.net.out ∧ t.ctxs = s.ctxs
    let ctx : CtxId := Fin.ofNat 256 (bits pk.a 56 8)
    (portUp14 s p → s.onFabric = true → s.needsSec p = false → pk.dstModule ≠ s.net.regs.module → dropped) ∧
    (arrives s p pk → s.net.conns = [] → dropped ∧ ∃ t, exec (.connectAck p pk) s = .next t ∧ t.net.dropped = s.net.dropped + 1) ∧
    (inOrder → ∃ t, exec (.complete p pk) s = .next t ∧ took t ∧ t.net.completes = s.net.completes ++ [(c.peer.toNat, pk.payload)] ∧
      t.net.out = s.net.out ∧ t.ctxs = s.ctxs ∧ t.dram = s.dram) ∧
    (inOrder → s.ctx? ctx = none → ∃ t, exec (.submit p pk) s = .next t ∧ took t ∧ t.ctxs = s.ctxs ∧ t.net.out = s.net.out) ∧
    (inOrder → s.ctx? ctx = some x → (c.mask.getD (ctx.val / 64) 0).getLsbD (ctx.val % 64) = true → x.net = true → x.st = .open_ → pk.payload = ws →
      ws.length = 8 → (ws.getD 0 0).setWidth 32 = x.streamSeq c.num → descCount ws = some n → bits (ws.getD 0 0) 56 8 ≠ 3 → x.load + n ≤ 4096 →
      ∃ t y, exec (.submit p pk) s = .next t ∧ took t ∧ t.ctx? ctx = some y ∧ y.descs = x.descs ++ [descOf ws n (some c.num)] ∧
        y.streamSeq c.num = x.streamSeq c.num + 1 ∧ t.net.out = s.net.out) ∧
    (inOrder → s.net.early = [] → s.net.colls = [] → s.net.ended.contains (pk.b, BitVec.ofNat 32 (bits pk.a 32 32)) = true →
      (s.pktBuf ((s.portDie p).getD 0)).held.sum + 8 * pk.payload.length ≤ 46 * 2 ^ 20 →
      (s.pktBuf ((s.portDie p).getD 0)).held.getD c.part.val 0 + 8 * pk.payload.length ≤ (s.net.regs.bufLimit.getD c.part.val 736).toNat * 65536 →
      ∃ t, exec (.data p pk) s = .next t ∧ took t ∧ t.net.dropped = s.net.dropped + 1 ∧ t.dram = s.dram ∧ t.net.early = []) ∧
    (arrives s p pk → onlyConn s pk c → seenPsn c pk.psn = true → ∃ t, exec (.complete p pk) s = .next t ∧ t.net.completes = s.net.completes ∧
      ∃ y, t.net.out = s.net.out ++ [y] ∧ y.type = 2 ∧ y.port = p.val ∧ y.conn = c.peerConn) ∧
    (arrives s p pk → onlyConn s pk c → ∃ t y, exec (.probe p pk) s = .next t ∧ t.net.out = s.net.out ++ [y] ∧ y.type = 2 ∧ y.port = p.val ∧ y.conn = c.peerConn) ∧
    (arrives s p pk → onlyConn s pk c → c.outstanding = [o] → o.resent = 0 → ackHas pk o.psn = true → c.waiting = [] → ∃ t y,
      exec (.ack p pk) s = .next t ∧ t.conn? c.num = some y ∧ y.outstanding = [] ∧ y.acked = c.acked + 1 ∧
      y.srttUs = Config.smooth c.srttUs ((s.now - o.stamp) / 1000) ∧ y.lastUse = s.now ∧ t.net.out = s.net.out) ∧
    (arrives s p pk → onlyConn s pk c → s.ctxs = [] → exec (.close p pk) s = .next { s with net := { s.net with conns := [] } }) ∧
    (arrives s p pk → s.net.conns = [{ c with st := 1 }] → c.num = pk.conn → c.peer = pk.srcModule → c.waiting = [] → exec (.connectAck p pk) s =
      .next (s.modConn c.num (fun y => { y with st := 2, peerConn := BitVec.ofNat 32 (bits pk.a 32 32), lastUse := s.now }))) ∧
    (arrives s p pk → onlyConn s pk c → c.part.val = bits pk.a 0 4 → c.peerConn.toNat = bits pk.a 32 32 → ∃ t, exec (.connect p pk) s = .next t ∧
      sent s t 7 p.val c.peerConn (BitVec.ofNat 64 (c.num.toNat * 2 ^ 32 + c.part.val)) ∧ t.net.conns = s.net.conns) ∧
    (arrives s p pk → s.net.conns = [] → s.net.regs.peerCount.toNat ≤ pk.srcModule.toNat → exec (.connect p pk) s = .next s) ∧
    (s.net.conns = [c] → s.serving = true →
      (c.st = 1 → c.nextAttempt ≤ s.now → 8 ≤ c.attempts → exec (.connectRetry c.num) s = .next { s with net := { s.net with conns := [{ c with st := 0 }] } }) ∧
      (c.st = 1 → c.nextAttempt ≤ s.now → c.attempts < 8 → openingPort s = some p → ∃ t y, exec (.connectRetry c.num) s = .next t ∧ t.net.conns = [y] ∧
        y.attempts = c.attempts + 1 ∧ y.nextAttempt = s.now + 100000 ∧ y.st = 1 ∧ sent s t 6 p.val 0 (BitVec.ofNat 64 (c.num.toNat * 2 ^ 32 + c.part.val))) ∧
      (s.now < c.nextAttempt ∨ c.st ≠ 1 → exec (.connectRetry c.num) s = .next s) ∧
      (c.st = 2 → c.outstanding = [] → c.waiting = [] → c.lastUse + 10000000000 ≤ s.now → ∃ t, exec (.connectionIdleTimeout c.num) s = .next t ∧
        t.net.conns = [] ∧ ∃ y, t.net.out = s.net.out ++ [y] ∧ y.type = 8 ∧ y.conn = c.peerConn) ∧
      (c.outstanding ≠ [] → exec (.connectionIdleTimeout c.num) s = .next s) ∧
      (c.st = 2 → 0 < c.unacked → c.oldestUnacked + 4000 ≤ s.now → ∃ t y, exec (.ackTimer c.num) s = .next t ∧ t.conn? c.num = some { c with unacked := 0 } ∧
        t.net.out = s.net.out ++ [y] ∧ y.type = 2 ∧ y.conn = c.peerConn) ∧
      (c.unacked = 0 → exec (.ackTimer c.num) s = .next s) ∧
      (c.outstanding = [o] → o.stamp + Nat.max s.net.regs.rtoMin.toNat (2 * c.srttUs) * 1000 ≤ s.now →
        exec (.retransmitTimeout c.num o.psn) s = .next (resend s c.num o.psn)) ∧
      (∀ y, c.outstanding = [o] → s.net.out = [y] → y.peer = c.peer.toNat → y.conn = c.peerConn → y.psn = o.psn → 3 < y.type → ∃ t z,
        resend s c.num o.psn = t ∧ t.net.out = [y, { y with port := s.sprayPort c.peer (o.psn.toNat + o.resent + 1), flags := y.flags ||| 2 }] ∧
        t.conn? c.num = some z ∧ z.outstanding.map (fun w => (w.psn, w.resent, w.stamp)) = [(o.psn, o.resent + 1, s.now)]) ∧
      (c.outstanding = [] → exec (.retransmitTimeout c.num o.psn) s = .next s) ∧
      (c.st = 2 → c.waiting = [] → c.lastRound + c.srttUs * 1000 ≤ s.now → c.roundCe = 0 → n ≤ s.net.regs.targetUs.toNat →
        exec (.ccRound c.num n) s = .next (s.modConn c.num (fun y => { y with acked := 0, roundCe := 0, echo := false, lastRound := s.now, window := Nat.max 4096 (Nat.min (c.window + 4096) (s.net.regs.maxWindow.toNat * 4096)) }))) ∧
      (s.now < c.lastRound + c.srttUs * 1000 → exec (.ccRound c.num n) s = .next s) ∧
      (s.net.pairs = [q] → c.peer = q.peer → c.st = 2 → c.outstanding = [o] → o.port = q.port →
        (q.st = 0 → Nat.max q.lastAck o.stamp + 24000 ≤ s.now → ∃ t, exec (.pathProbeTimer q.peer q.port) s = .next t ∧
          t.net.pairs = [{ q with st := 1, lastProbe := s.now }] ∧ sent s t 3 q.port.val c.peerConn 0) ∧
        (q.st = 1 → Nat.max q.lastAck o.stamp + 64000 ≤ s.now → s.net.colls = [] → ∃ t, exec (.pathSilenceTimeout q.peer q.port) s = .next t ∧
          t.net.pairs = [{ q with st := 2, lastProbe := s.now }] ∧ t.net.conns = []) ∧
        (s.now < Nat.max q.lastAck o.stamp + 24000 → exec (.pathProbeTimer q.peer q.port) s = .next s ∧ exec (.pathSilenceTimeout q.peer q.port) s = .next s) ∧
        (q.st = 2 → q.lastProbe + 1000000 ≤ s.now → ∃ t, exec (.pathRetryTimer q.peer q.port) s = .next t ∧
          t.net.pairs = [{ q with lastProbe := s.now }] ∧ sent s t 3 q.port.val c.peerConn 0) ∧
        (q.st ≠ 2 → exec (.pathRetryTimer q.peer q.port) s = .next s)))

/-- Collective instances (R368-R376): a finished one writes its status and completes its instruction, a passed deadline fails it, a pace moves a
deadline within its cap, a withdraw ends it, and remembered withdraws expire. -/
def Obligations.CollectivesRunAndEnd : Prop :=
  ∀ (s : State) (c : CoreId) (x : Coll) (e : Entry) (i : WorkItem) (p : PortId) (pk : Packet) (k : Conn) (st : BitVec 16) (m : W32) (us : Nat),
    let inOrder : Prop := arrives s p pk ∧ onlyConn s pk k ∧ pk.psn = k.recvPsn ∧ k.recvAhead = [] ∧ k.unacked < 7
    let took (t : State) : Prop := ∃ y, t.conn? k.num = some y ∧ y.recvPsn = k.recvPsn + 1 ∧ y.unacked = k.unacked + 1
    let scopeAll : W32 := BitVec.ofNat 32 (bits pk.a 32 32)
    (s.memWf → s.net.colls = [x] → x.core = c → x.status = some (st, m) → x.isLocal = true → x.exchanged = true → s.net.early = [] →
      (s.core c).item = some i → i.fetchOrder = x.fetched → (s.core c).inflight = [e] → e.ord = x.ord → (s.core c).undef = [] →
      (s.core c).clash = [] → (s.core c).bufs = [] → quiet (s.core c) → x.desc.addr + 256 ≤ coreStoreSize → ∃ t, exec (.collComplete c 0) s = .next t ∧
        t.net.colls = [] ∧ (t.core c).inflight = [] ∧ (t.core c).poisonSeen = ((s.core c).poisonSeen || x.poison) ∧
        (∀ a, memRead zeroByte t.coreStore a =
          if storeAt c (x.desc.addr + 8) ≤ a ∧ a < storeAt c (x.desc.addr + 16) then (natLe 8 (m.toNat * 2 ^ 32 + st.toNat)).getD (a - storeAt c (x.desc.addr + 8)) 0
          else if storeAt c (x.desc.addr + 48) ≤ a ∧ a < storeAt c (x.desc.addr + 56) then
            (natLe 8 (x.paceUsed * 2 ^ 32 + x.timeoutUs)).getD (a - storeAt c (x.desc.addr + 48)) 0
          else memRead zeroByte s.coreStore a) ∧ t.dram = s.dram) ∧
    (s.net.colls = [] → exec (.collComplete c 0) s = .next s) ∧
    (s.net.colls = [x] → x.status = none → x.isLocal = true → x.members = [0, 1] → x.rank = 0 →
      (x.deadlines = [(1, s.now)] → x.got 1 < x.expected 1 → ∃ t y, exec (.collTimeout x.comm x.seq) s = .next t ∧ t.net.colls = [y] ∧
        y.status = some (stCollTimeout, 1) ∧ t.net.withdrawn = s.net.withdrawn ++ [(x.comm, x.seq, 65536, s.now)]) ∧
      (x.deadlines = [] → exec (.collTimeout x.comm x.seq) s = .next s)) ∧
    (exec (.withdrawMemoryExpiry x.comm x.seq) s = .next { s with net := { s.net with
      withdrawn := s.net.withdrawn.filter (fun w => !(w.1 == x.comm && w.2.1 == x.seq && decide (w.2.2.2 + 1000000000 ≤ s.now))) } }) ∧
    (inOrder → s.net.colls = [x] → x.isLocal = false → x.comm = pk.b → x.seq = scopeAll → x.status = none → x.members = [0, k.peer.toNat] → k.peer ≠ 0 →
      x.deadlines = [(1, us)] →
      (x.paceUsed + bits pk.a 0 16 ≤ s.net.regs.paceMaxMs.toNat * 1000 → ∃ t, exec (.pace p pk) s = .next t ∧ took t ∧ t.net.colls =
        [{ x with paceUsed := x.paceUsed + bits pk.a 0 16, deadlines := [(1, s.now + (x.timeoutUs + bits pk.a 0 16) * 1000)] }] ∧ t.net.out = s.net.out) ∧
      (s.net.regs.paceMaxMs.toNat * 1000 < x.paceUsed + bits pk.a 0 16 → ∃ t, exec (.pace p pk) s = .next t ∧ took t ∧ t.net.colls = [x]) ∧
      (bits pk.a 0 8 = 0 → s.net.early = [] → s.seqs = [] → (s.core x.core).item = none → ∃ t, exec (.withdraw p pk) s = .next t ∧ took t ∧
        t.net.colls = [{ x with status := some (stCollWithdrawn, 1), poison := x.poison }] ∧ t.net.out = s.net.out)) ∧
    (inOrder → s.net.colls = [] → s.seqs = [] → bits pk.a 0 8 = 0 → s.net.ended.contains (pk.b, scopeAll) = false → ∃ t,
      exec (.withdraw p pk) s = .next t ∧ took t ∧ t.net.withdrawn = s.net.withdrawn ++ [(pk.b, scopeAll, k.peer.toNat, s.now)]) ∧
    (s.net.colls = [x] → x.isLocal = false → x.status = none → x.members = [0] → x.rank = 0 → s.serving = true → s.mpUp = true → s.procUp 10 = true →
      s.net.pacing = [] → paceCause s us .thermalHold = true → ∃ t, exec (.paceHintSend x.comm .thermalHold us) s = .next t ∧
        t.net.pacing = [{ comm := x.comm, lastAt := s.now, delayUs := Nat.min 65535 ((us + 999) / 1000) }] ∧ t.net.out = s.net.out ∧ t.net.conns = s.net.conns) ∧
    (s.net.colls = [] → exec (.paceHintSend x.comm .powerCap us) s = .next s)

/-! ## Schedulers, firmware processors, rails (chapters 14, 15) -/

/-- Work items on their way to cores (R384, R385, R387, R391): the scheduler fills the queue of the eligible core with the fewest items, a higher
priority pre-empts, hot cores give movable items to equal ones, a fenced core's items go back. -/
def Obligations.SchedulersPlaceWork : Prop :=
  ∀ (s : State) (t : TowerId) (c d : CoreId) (i j : WorkItem),
    let up (c : CoreId) : Prop := s.procUp (2 + (towerOf c).val) = true
    let k := s.core c
    (s.procUp (2 + t.val) = true → s.err.safe = false → s.sched.waiting = [i] → fewest s (eligible s i) = some d.val → towerOf d = t →
      (s.core d).localQ.length < 16 → ∃ u, exec (.queueFill t) s = .next u ∧ u.sched.waiting = [] ∧ (u.core d).localQ = (s.core d).localQ ++ [handOut s t i] ∧
        (∀ e, e ≠ d → u.core e = s.core e) ∧ u.coreStore = s.coreStore ∧ u.dram = s.dram) ∧
    (s.procUp (2 + t.val) = false ∨ s.sched.waiting = [] → exec (.queueFill t) s = .next s) ∧
    (s.tables = [] → s.ctx? i.context = none → handOut s t i = i) ∧
    (k.item = some i → k.localQ = [j] → i.preemptible = true → k.saved = none → k.paused = false → up c → s.fw.preemptDelta ≠ 0 →
      (i.priority.toNat + s.fw.preemptDelta.toNat ≤ j.priority.toNat →
        (k.groups.any groupRetrying = true → ∃ u, exec (.priorityPreempt c) s = .next u ∧ (u.core c).preemptPending = true ∧ (u.core c).item = some i ∧
          (u.core c).localQ = [j]) ∧
        (k.groups.any groupRetrying = false → exec (.priorityPreempt c) s = .next (preempt 1 (s.setCore c { k with localQ := [j] }) c))) ∧
      (j.priority.toNat < i.priority.toNat + s.fw.preemptDelta.toNat → exec (.priorityPreempt c) s = .next s)) ∧
    (s.fw.preemptDelta = 0 → exec (.priorityPreempt c) s = .next s) ∧
    (k.localQ = [i] → i.movable = true → k.hot = true → s.fw.rotateEn = true → up c → d ≠ c → i.eqFirst = d.val → i.eqCount = 1 →
      s.takesWork d.val = true → (s.part i.partition).cores.contains d.val = true → (s.core d).localQ.length < 16 → towerOf d = towerOf c → ∃ u,
      exec (.rotateWork c) s = .next u ∧ (u.core c).localQ = [] ∧ (u.core d).localQ = (s.core d).localQ ++ [i] ∧
      u.fw = { s.fw with rotations := satAdd s.fw.rotations 1 } ∧ (∀ e, e ≠ c → e ≠ d → u.core e = s.core e) ∧ u.dram = s.dram) ∧
    (k.hot = false ∨ s.fw.rotateEn = false → exec (.rotateWork c) s = .next s) ∧
    (k.fenced = true → up c → ∃ u, exec (.coreFenceRequeue c) s = .next u ∧ (u.core c).localQ = [] ∧ u.sched.waiting.length = s.sched.waiting.length + k.localQ.length ∧
      (∀ w ∈ k.localQ, ({ w with firstCore := w.eqFirst, coreCount := w.eqCount } : WorkItem) ∈ u.sched.waiting) ∧ (∀ e, e ≠ c → u.core e = s.core e)) ∧
    (k.fenced = false → exec (.coreFenceRequeue c) s = .next s)

/-- Firmware processors (R394-R402, R406): a restart counts, records and dumps, the third within 10 s holds the processor down; the image check and
the journal bring it back; dumps are archived; a message wakes one from retention. -/
def Obligations.ProcessorsRestart : Prop :=
  ∀ (s : State) (p : ProcId) (cause : RestartCause) (slot : Fin 2) (b : Bool), s.procs.length = 12 →
    let x := s.proc p.val
    let up : Prop := s.start.phase = .service ∧ x.st = .running
    let d := x.dumps.getD slot.val Dump.reset
    (up → x.dumps.length = 2 → (recentRestarts s p.val).length < 2 → x.total ≠ 0xFFFF → p.val ≠ 1 → ∃ t, exec (.watchdogExpire p cause) s = .next t ∧
      (t.proc p.val).st = .restarting ∧ (t.proc p.val).total = x.total + 1 ∧ (t.proc p.val).restartTimes = s.now :: recentRestarts s p.val ∧
      (∃ e, (t.proc p.val).dumps[(dumpSlotFor x).1]? = some e ∧ e.valid = true ∧ e.cause = causeOf cause ∧ e.stamp = s.now ∧ e.archived = false) ∧
      (∀ q, q ≠ p.val → t.proc q = s.proc q) ∧ t.cores = s.cores ∧ t.dram = s.dram) ∧
    (up → 2 ≤ (recentRestarts s p.val).length → 2 ≤ p.val → p.val < 10 → ∃ t, exec (.watchdogExpire p cause) s = .next t ∧
      (t.proc p.val).st = .heldDown ∧ t.cores = s.cores ∧ t.err.safe = s.err.safe) ∧
    (up → p.val = 0 → 2 ≤ (recentRestarts s 0).length → s.err.safe = false → ∃ t, exec (.watchdogExpire p cause) s = .next t ∧ safeBy t 3) ∧
    (x.st = .heldDown ∨ x.st = .off ∨ x.st = .retention → exec (.watchdogExpire p cause) s = .next s) ∧
    (x.st = .restarting → (s.proc 1).st = .running → 2 ≤ p.val → s.procs.all (fun y => y.writes.isEmpty) = true →
      (exec (.processorResume p true true) s = .next (s.modProc p.val (fun y => { y with st := .running, writes := [] }))) ∧
      (s.sec.regs.length = 16 → ∃ t, exec (.processorResume p false true) s = .next t ∧ (t.proc p.val).st = .running ∧
        t.mreg (imageReg p) = Config.shake256 (bytes64 (s.mreg (imageReg p)) ++ Config.imageHash s.fw.running (imageReg p))) ∧
      (exec (.processorResume p true false) s = .next s)) ∧
    (x.st ≠ .restarting → exec (.processorResume p b b) s = .next s) ∧
    (s.mpUp = true → d.island.isSome = true → d.archived = false → ∃ t, exec (.dumpArchive p slot) s = .next t ∧ t.fw.archive = (p.val, d) :: s.fw.archive ∧
      (t.proc p.val).dumps = x.dumps.set slot.val { d with archived := true } ∧ (∀ q, q ≠ p.val → t.proc q = s.proc q)) ∧
    (d.island = none ∨ d.archived = true → exec (.dumpArchive p slot) s = .next s) ∧
    (x.st = .retention → exec (.processorWake p) s = .next (s.modProc p.val (fun y => { y with st := .running }))) ∧
    (x.st ≠ .retention → exec (.processorWake p) s = .next s)

/-- Rails, the power cap and power-up (R405, R414-R419): a raise is requested, acknowledged, or given up after three timeouts; the cap's ceiling
stays between 4 and 16; a domain comes up in four steps, each retried once; a stage fault fences its tower. -/
def Obligations.RailsAndPowerFollow : Prop :=
  ∀ (s : State) (n : StageId) (t : TowerId) (mv w v : Nat) (c : CoreId) (step : Fin 4) (fault : BitVec 16), s.pwr.stages.length = 11 →
    let x := s.stage n
    let put (f : Stage → Stage) : Out := .next (s.modStage n f)
    let island := Domain.coreIsland c
    (s.mpUp = true → n.val < 8 → x.on = true → x.held = false → (mv = 670 ∨ mv = 730 ∨ mv = 800) → x.setpoint < mv →
      (x.pending = none → exec (.avsRaise n mv) s = put (fun y => { y with pending := some mv, fails := 0, since := s.now })) ∧
      (x.pending = some v → exec (.avsRaise n mv) s = put (fun y => { y with queued := some mv }))) ∧
    (8 ≤ n.val ∨ mv ≤ x.setpoint ∨ x.held = true → exec (.avsRaise n mv) s = .next s) ∧
    (s.mpUp = true → x.pending = some v → ∃ u, exec (.avsAck n) s = .next u ∧ (u.stage n).setpoint = v ∧ (u.stage n).pending = x.queued ∧
      (u.stage n).queued = none ∧ (∀ m, m ≠ n → u.stage m = s.stage m) ∧ (∀ d, (s.core d).q ≤ (u.core d).q) ∧ u.coreStore = s.coreStore) ∧
    (x.pending = none → exec (.avsAck n) s = .next s ∧ exec (.avsAckTimeout n) s = .next s) ∧
    (s.mpUp = true → x.pending = some v → x.since + 1000000 ≤ s.now →
      (x.fails < 2 → exec (.avsAckTimeout n) s = put (fun y => { y with fails := y.fails + 1, since := s.now })) ∧
      (2 ≤ x.fails → ∃ u, exec (.avsAckTimeout n) s = .next u ∧ (u.stage n).held = true ∧ (u.stage n).pending = none ∧ (u.stage n).setpoint = x.setpoint ∧
        (∀ m, m ≠ n → u.stage m = s.stage m))) ∧
    (s.now < x.since + 1000000 → exec (.avsAckTimeout n) s = .next s) ∧
    (s.start.phase ≠ .off → x.on = true → n.val = t.val → s.err.safe = false → s.fencedTowers = [] → ∃ u, exec (.stageFault n fault) s = .next u ∧
      (u.stage n).on = false ∧ u.fencedTowers = [t.val] ∧ u.isFenced 5 t.val 0 = true ∧
      u.pwr.nearBank = s.pwr.nearBank.set t.val .off) ∧
    (s.start.phase ≠ .off → x.on = true → 8 ≤ n.val → n.val < 10 → s.err.safe = false → ∃ u, exec (.stageFault n fault) s = .next u ∧ safeBy u 5) ∧
    (s.start.phase ≠ .off → x.on = true → n.val = 10 → ∃ u, exec (.stageFault n fault) s = .next u ∧ u.start.phase = .off ∧ u.dram = [] ∧
      u.coreStore = [] ∧ u.err.safe = false ∧ u.fencedTowers = s.fencedTowers ∧ u.err.fences = s.err.fences) ∧
    (x.on = false → exec (.stageFault n fault) s = .next s) ∧
    (s.mpUp = true → s.pwr.qMax ≤ 16 → 4 ≤ s.pwr.qMax → ∃ u, exec (.capSample w) s = .next u ∧ 4 ≤ u.pwr.qMax ∧ u.pwr.qMax ≤ 16 ∧
      u.pwr.samples = (w :: s.pwr.samples).take 10 ∧ u.pwr.effective = (effectiveCap s).1 ∧ u.pwr.meanW = Nat.min 4095 (meanOf u.pwr.samples) ∧
      (u.pwr.effective < u.pwr.meanW → 4 < s.pwr.qMax → u.pwr.qMax < s.pwr.qMax) ∧ (u.pwr.meanW ≤ u.pwr.effective → s.pwr.qMax ≤ u.pwr.qMax)) ∧
    (s.mpUp = false → exec (.capSample w) s = .next s) ∧
    (s.mpUp = true → s.err.safe = false → s.pwr.powerUp = [] → (s.core c).mode = .off → s.pwr.failed = [] →
      (exec (.strictPowerUp island 0 true) s = .next { s with pwr := { s.pwr with powerUp := [(c.val, 1, 0)] } }) ∧
      (exec (.strictPowerUp island 0 false) s = .next { s with pwr := { s.pwr with powerUp := [(c.val, 0, 1)] } }) ∧
      (step ≠ 0 → exec (.strictPowerUp island step true) s = .next s)) ∧
    (s.mpUp = true → s.err.safe = false → s.pwr.powerUp = [(c.val, 3, 0)] → (s.core c).mode = .off → s.pwr.failed = [] → ∃ u,
      exec (.strictPowerUp island 3 true) s = .next u ∧ (u.core c).mode = .run ∧ (u.core c).onLoop = true ∧ u.pwr.powerUp = []) ∧
    (s.mpUp = true → s.err.safe = false → s.pwr.powerUp = [(c.val, 1, 1)] → (s.core c).mode = .off → s.pwr.failed = [] → ∃ u,
      exec (.strictPowerUp island 1 false) s = .next u ∧ (u.core c).mode = .off ∧ (u.core c).fenced = true ∧ u.pwr.failed = [c.val] ∧ u.pwr.powerUp = []) ∧
    ((s.core c).mode ≠ .off → exec (.strictPowerUp island step true) s = .next s)

/-! ## Supply, start and tamper (chapters 12, 18, 20) -/

/-- What a start keeps: fences, function memory of the host, and time; no work item, no SAFE. -/
def Sys2Proof.Claims.started (s t : State) : Prop :=
  t.err.safe = false ∧ t.err.fences = s.err.fences ∧ t.err.marks = s.err.marks ∧ t.fencedTowers = s.fencedTowers ∧ t.hostMem = s.hostMem ∧
  t.now = s.now ∧ t.coreStore = [] ∧ t.ctxs = [] ∧ t.regions = [] ∧ ∀ c, (t.core c).fenced = (s.core c).fenced ∧ (t.core c).item = none

/-- Supply and reset (R484, R495, R496, R501, R503): each threshold lies in its range of Table 20.3, the module turns on, stops below and above
its limits and on a reset keeps what Table 19.1 keeps; hot reset is an FLR of every function. -/
def Obligations.SupplyAndResetStartTheModule : Prop :=
  ∀ (s : State) (mv : Nat) (l : BitVec 3),
    let x := s.start
    let on (t : State) : Prop := started s t ∧ t.start.phase = (if x.perst then .standby else .starting) ∧ t.start.perst = x.perst ∧ t.start.mv = mv ∧
      t.start.overvoltage = false ∧ t.start.warmNext = false ∧ t.err.entries = [] ∧ t.map.epoch = 0 ∧ t.dram = s.dram
    let stops (o : Out) (above : Bool) : Prop := ∃ t, o = .next t ∧ started s t ∧ t.start.phase = .off ∧ t.start.latches = x.latches ∧
      t.start.overvoltage = above ∧ t.start.armed = false ∧ t.dram = []
    (39000 ≤ turnOnMv ∧ turnOnMv ≤ 40000 ∧ 37500 ≤ turnOffMv ∧ turnOffMv ≤ 38500 ∧ 61000 ≤ overMv ∧ overMv ≤ 63000) ∧
    (x.phase = .off → x.overvoltage = false → turnOnMv ≤ mv → mv ≤ overMv →
      ∃ t, exec (.powerOn mv l) s = .next t ∧ on t ∧ t.start.latches = x.latches ||| l) ∧
    (x.phase ≠ .off ∨ x.overvoltage = true ∨ mv < turnOnMv ∨ overMv < mv → exec (.powerOn mv l) s = .next s) ∧
    (x.phase ≠ .off → mv < turnOffMv → stops (exec (.inputUndervoltage mv) s) false) ∧
    (x.phase = .off ∨ turnOffMv ≤ mv → exec (.inputUndervoltage mv) s = .next s) ∧
    (x.phase ≠ .off → overMv < mv → stops (exec (.inputOvervoltage mv) s) true) ∧
    (x.phase = .off ∨ mv ≤ overMv → exec (.inputOvervoltage mv) s = .next s) ∧
    (x.phase = .off → x.overvoltage = true → mv < 60000 → turnOnMv ≤ mv → ∃ t, exec (.inputOvervoltageReturn mv) s = .next t ∧ on t ∧ t.start.latches = x.latches) ∧
    (x.overvoltage = false ∨ 60000 ≤ mv → exec (.inputOvervoltageReturn mv) s = .next s) ∧
    (x.perst = false → x.phase ≠ .off → ∃ t, exec .perstAssert s = .next t ∧ started s t ∧ t.start.phase = .standby ∧ t.start.perst = true ∧
      t.start.warmNext = true ∧ t.start.safeCause = (if s.err.safe then s.err.cause else 0) ∧ t.err.entries = s.err.entries ∧
      t.err.nextIndex = s.err.nextIndex ∧ t.map.epoch = s.map.epoch ∧ t.dram = s.dram ∧ t.sec.owner = s.sec.owner ∧ t.sec.rollback = s.sec.rollback) ∧
    (x.perst = true → exec .perstAssert s = .next s) ∧
    (x.perst = false → x.phase = .off → exec .perstAssert s = .next { s with start := { x with perst := true, perstAt := s.now } }) ∧
    (let more : BitVec 12 := if x.warmNext && x.warmStarts != 0xFFF then x.warmStarts + 1 else x.warmStarts
      let y : Start := { x with perst := false, perstAt := s.now, phase := .starting, warm := x.warmNext, warmStarts := more }
      x.perst = true → x.phase = .standby → exec .perstDeassert s = .next { s with start := y }) ∧
    (x.perst = true → x.phase = .off → exec .perstDeassert s = .next { s with start := { x with perst := false, perstAt := s.now } }) ∧
    (x.perst = false → exec .perstDeassert s = .next s) ∧
    (x.phase = .service → exec .hotReset s =
      (List.finRange 16).foldl (fun o f => match o with | .next t => exec (.flr f) t | o => o) (.next s)) ∧
    (x.phase ≠ .service → exec .hotReset s = .next s)

/-- Headwater boot and the step to READY (R324, R393, R394, R438, R456, R462, R463): the wanted slot boots if it is usable, else the other one,
else Kegor is in SAFE with no processor but the SP; a latched switch destroys the identity; READY follows the erase, the loops and the links. -/
def Obligations.HeadwaterBootsAUsableSlot : Prop :=
  ∀ (s : State) (a b : SlotCheck) (ok pass : Bool), s.procs.length = 12 → s.fns.length = 16 →
    let x := s.start
    let want := if s.fw.trial then s.fw.committed else s.fw.next
    let pick (w : Bool) : SlotCheck := if w then b else a
    let usable (w : Bool) : Prop := slotVer s (pick w) = 1
    let ready : Prop := x.phase = .booted ∧ s.sec.erasing = none ∧ s.clks.all (fun k => k.locked) = true ∧ s.links.all (fun k => k.st != 0) = true
    let due : Prop := x.phase = .starting ∧ x.perst = false ∧ (s.proc 1).st ≠ .heldDown
    let boots (slot : Bool) : Prop := ∃ t, exec (.headwaterBoot true a b pass) s = .next t ∧ t.start.phase = .booted ∧ t.fw.running = slot ∧
      t.fw.trial = (slot != s.fw.committed) ∧ t.sec.erasing = some s.now ∧ t.sec.farKeys = some s.sec.keysGen ∧ t.farMem = [] ∧
      t.err.safe = s.err.safe ∧ ∀ p : ProcId, (t.proc p.val).st = .running
    (due → x.latches = 0 → (usable want → boots want) ∧ (¬usable want → usable (!want) → boots (!want)) ∧
      (¬usable want → ¬usable (!want) → ∃ t, exec (.headwaterBoot true a b pass) s = .next t ∧ t.start.phase = .booted ∧ t.err.safe = true ∧
        t.err.cause = 10 ∧ (t.fn 0).st = .safe ∧ ∀ p : ProcId, p.val ≠ 1 → (t.proc p.val).st = .off) ∧
      (∃ t, exec (.headwaterBoot false a b pass) s = .next t ∧ t.sec.selftest = 2 ∧ t.start = s.start ∧ t.dram = s.dram ∧ t.cores = s.cores)) ∧
    (due → x.latches &&& s.sec.enabled.setWidth 3 ≠ 0 → ∃ t, exec (.headwaterBoot ok a b pass) s = .next t ∧ t.sec.identityLost = true ∧
      t.start.latches = 0) ∧
    (¬due → exec (.headwaterBoot ok a b pass) s = .next s) ∧
    (ready → s.err.safe = false → flowShort s = false → ∃ t, exec .startupReady s = .next t ∧ t.start = { x with phase := .service } ∧
        (t.fn 0).st = (if (s.fn 0).st = .init then .ready else (s.fn 0).st) ∧ (∀ f, f ≠ 0 → t.fn f = s.fn f) ∧ t.cores = s.cores ∧ t.dram = s.dram) ∧
    (ready → s.err.safe = false → flowShort s = true → ∃ t, exec .startupReady s = .next t ∧ t.start.phase = .service ∧ safeBy t 1) ∧
    (ready → s.err.safe = true → ∃ t, exec .startupReady s = .next t ∧ t.start = { x with phase := .service } ∧ t.fns = s.fns) ∧
    (¬ready → exec .startupReady s = .next s)

/-- Tamper inputs and the erase (R462, R470-R472): an enabled response zeroises the keys, sends Kegor to SAFE and starts the erase, a physical
input destroys the identity; without power only the switches latch; the erase leaves every block zero with a valid check word. -/
def Obligations.TamperZeroisesAndErases : Prop :=
  ∀ (s : State) (i : TamperInput) (t0 : Nat),
    let bit : BitVec 6 := BitVec.ofNat 6 (2 ^ tamperBit i)
    let mark : Out := .next { s with sec := { s.sec with tripped := s.sec.tripped ||| bit } }
    let live : Prop := s.start.phase ≠ .off ∧ (physical i = true ∨ s.start.armed = true)
    (live → s.sec.enabled &&& bit = 0 → exec (.tamperTrip i) s = mark) ∧
    (live → s.sec.enabled &&& bit ≠ 0 → ∃ t, exec (.tamperTrip i) s = .next t ∧ t.sec.tripped = s.sec.tripped ||| bit ∧ t.sec.zeroised = true ∧
      t.sec.farKeys = none ∧ t.sec.caks = [] ∧ t.sec.mbox.all (fun m => m.session.isNone && m.quote.isNone) = true ∧
      t.sec.identityLost = (s.sec.identityLost || physical i) ∧ t.sec.erasing.isSome = true ∧ t.err.safe = true ∧
      t.err.cause = (if s.err.safe then s.err.cause else 12) ∧ t.coreStore = []) ∧
    (s.start.phase = .off → physical i = true → exec (.tamperTrip i) s =
      .next { s with start := { s.start with latches := s.start.latches ||| bit.setWidth 3 } }) ∧
    (physical i = false → s.start.phase = .off ∨ s.start.armed = false → exec (.tamperTrip i) s = .next s) ∧
    (s.sec.erasing = none → exec .eraseComplete s = .next s) ∧
    (s.sec.erasing = some t0 → s.sec.zeroised = false →
      exec .eraseComplete s = .next { s with dram := [], sec := { s.sec with erasing := none } }) ∧
    (s.sec.erasing = some t0 → s.sec.zeroised = true → ∃ t, exec .eraseComplete s = .next t ∧ t.sec = { s.sec with erasing := none }) ∧
    (s.sec.erasing = some t0 → s.sec.zeroised = true → (∀ c, (s.slice c).selfRefresh = true) → exec .eraseComplete s =
      .next ({ s with dram := [], sec := { s.sec with erasing := none } }.log secEraseDone srcMp 0 0 none [BitVec.ofNat 64 (s.now - t0), 0])) ∧
    (∀ c a, s.dram = [] → s.blkData c a = 0 ∧ s.blkCheck c a = checkWord 0)

/-! ## Sensors, thermal responses, coolant (chapter 16) -/

/-- Sensors and predictions (R421-R430): a sample sets its sensor's reading and acts by the clock law and the hot mark, a single sensor without a
usable conversion fails, an IO die at 115 °C ends in SAFE, a pair that disagrees for 10 ms is judged once, 10 s of agreement return a
sensor, and the MP's prediction is compared, published and goes stale. -/
def Obligations.SensorsAndPredictionsAct : Prop :=
  ∀ (s : State) (c : CoreId) (x : SensorId) (h : HotSpot) (d : Fin 2) (n : Fin 4) (v p : Int) (t0 : Nat),
    let k := s.core c
    let own : HotSpot := .core c
    let io (o : Option Int) : Out := exec (.sensorSample (.io d n) o) s
    let y := s.spot h
    let past := modelNow s h
    let dev (z : SensorId) : Int := (match past with | some m => gap (s.sensor z).reading m | none => 0) + gap (s.sensor z).reading (nearMean s h)
    let recent (z : SensorId) : Nat := ((s.sensor z).suspects.filter (fun t => decide (s.now < t + 3600000000000))).length
    let due : Prop := y.disagree = some t0 ∧ t0 + 10000000 < s.now ∧ y.judged = false ∧ (sensorsOf h).all (fun z => (s.sensor z).st == 0) = true
    let blamed (z : SensorId) : Prop := ∃ t, exec (.sensorDisagree h) s = .next t ∧ (t.sensor z).st = (if 2 ≤ recent z then 2 else 1) ∧
      (∀ w, w ≠ z → t.sensor w = s.sensor w) ∧ (t.spot h).judged = true ∧ t.cores = s.cores ∧ t.dram = s.dram
    ((∀ d n, x ≠ .io d n) →
    (∃ t, exec (.sensorSample x (some v)) s = .next t ∧ (t.sensor x).reading = v ∧ (∀ w, w ≠ x → t.sensor w = s.sensor w) ∧
      (-160 ≤ v → v ≤ 600 → (t.sensor x).st = (s.sensor x).st) ∧
      ((sensorsOf (spotOf x)).length = 1 → v < -160 ∨ 600 < v → (t.sensor x).st = 2) ∧ t.dram = s.dram ∧ t.coreStore = s.coreStore) ∧
    (∃ t, exec (.sensorSample x none) s = .next t ∧ (t.sensor x).reading = (s.sensor x).reading ∧ (∀ w, w ≠ x → t.sensor w = s.sensor w) ∧
      (t.sensor x).st = (if (sensorsOf (spotOf x)).length = 1 then 2 else (s.sensor x).st) ∧ t.dram = s.dram)) ∧
    ((s.sensor (.core c 0)).st = 0 → (s.sensor (.core c 1)).st = 0 → (s.sensor (.core c 1)).reading ≤ v → 440 ≤ v → v ≤ 600 → freshP s own = true →
      (s.spot own).p < v + 30 → (s.spot own).preThrottle = none → (s.spot own).lastStep + 100000 ≤ s.now → 4 < k.q → k.mode = .run →
      ∃ t, exec (.sensorSample (.core c 0) (some v)) s = .next t ∧ (t.core c).q = Nat.min (k.q - 1) (qLimit s c) ∧
        (440 - 4 * (s.thm.margin.toNat : Int) ≤ (s.spot own).p → (t.core c).hot = true) ∧ (∀ e, e ≠ c → t.core e = s.core e)) ∧
    ((s.sensor (.io d n)).st = 0 → 460 ≤ v → v ≤ 600 → s.err.safe = false → ∃ t, io (some v) = .next t ∧ safeBy t 7) ∧
    ((s.sensor (.io d n)).st = 0 → -160 ≤ v → v < 460 → ∃ t, io (some v) = .next t ∧ (t.sensor (.io d n)).reading = v ∧ t.err.safe = s.err.safe ∧
      t.cores = s.cores) ∧
    (∀ a b, due → sensorsOf h = [a, b] → (dev b + 8 ≤ dev a → blamed a) ∧ (dev a + 8 ≤ dev b → blamed b) ∧
      (dev a < dev b + 8 → dev b < dev a + 8 → ∃ t, exec (.sensorDisagree h) s = .next t ∧ (∀ w, t.sensor w = s.sensor w) ∧ (t.spot h).judged = true ∧
        t.cores = s.cores ∧ (hasRoom s (spotSrc h) → reports t (spotSrc h) thmDisagree))) ∧
    (∀ a, due → sensorsOf h = [a] → blamed a) ∧
    (y.disagree = none ∨ y.judged = true ∨ (y.disagree = some t0 ∧ s.now ≤ t0 + 10000000) → exec (.sensorDisagree h) s = .next s) ∧
    (y.agree = some t0 → t0 + 10000000000 ≤ s.now → ∃ t, exec (.sensorReturn h) s = .next t ∧
      (∀ w ∈ sensorsOf h, (t.sensor w).st = if (s.sensor w).st = 1 then 0 else (s.sensor w).st) ∧ t = { s with thm := t.thm }) ∧
    (y.agree = none ∨ (y.agree = some t0 ∧ s.now < t0 + 10000000000) → exec (.sensorReturn h) s = .next s) ∧
    (s.mpUp = true → ∃ t, exec (.modelUpdate h p) s = .next t ∧ (t.spot h).pAt = some s.now ∧ (t.spot h).p = p + ((t.spot h).drift + 4) / 5 ∧
      (past = none → (t.spot h).drift = y.drift) ∧
      (∀ m, past = some m → prot s h - m ≤ 8 → (t.spot h).drift = (if y.drift < 2 then 0 else y.drift - 2) ∧ (t.spot h).driftRun = 0) ∧
      (∀ m, past = some m → 8 < prot s h - m → y.driftRun < 9 → (t.spot h).drift = y.drift ∧ (t.spot h).driftRun = y.driftRun + 1) ∧
      (∀ m, past = some m → 8 < prot s h - m → 9 ≤ y.driftRun → (t.spot h).drift = y.drift + 5 * (prot s h - m) ∧ (t.spot h).driftRun = 0) ∧
      (∀ w, t.sensor w = s.sensor w) ∧ t.cores = s.cores ∧ t.dram = s.dram) ∧
    (s.mpUp = false → exec (.modelUpdate h p) s = .next s) ∧
    (y.pAt = some t0 → t0 + 1000000 < s.now → exec (.predictionStale h) s = .next (s.modSpot h (fun z => { z with pAt := none }))) ∧
    (y.pAt = none ∨ (y.pAt = some t0 ∧ s.now ≤ t0 + 1000000) → exec (.predictionStale h) s = .next s)

/-- Stops (R431, R432, R438-R440, R457, R458): a hot spot's trigger stops its tower, the third stop in 60 s derates it, 10 ms of cool release it;
the coolant stops and a standing cause of Table 17.9 end in SAFE with their own causes. -/
def Obligations.StopsOfTowersAndOfKegor : Prop :=
  ∀ (s : State) (t : TowerId) (h : HotSpot) (ns n at_ : Nat) (cause : Fin 14) (p : Bool), s.thm.towers.length = 8 →
    let x := s.tower t
    let stops := s.now :: x.stops.filter (fun y => decide (s.now < y + 60000000000))
    let due : Prop := fastTrigger s h = some n ∧ x.fastStop = false ∧ spotTower h = some t ∧ s.err.safe = false
    let cool : Prop := x.fastStop = true ∧ s.err.safe = false ∧ s.thm.coolSt ≠ 3 ∧ x.coolSince = some at_ ∧ at_ + 10000000 ≤ s.now ∧
      (towerSpots t).all (releaseCool s) = true
    let up : Prop := s.start.phase = .booted ∨ s.start.phase = .service
    (due → ∃ u, exec (.fastStop t h ns) s = .next u ∧ (u.tower t).fastStop = true ∧ (u.tower t).stops = stops ∧
      (u.tower t).derated = (x.derated || decide (3 ≤ stops.length)) ∧ (u.tower t).stopAt = s.now ∧
      u.thm.fastStops.toNat = Nat.min 255 (s.thm.fastStops.toNat + 1) ∧ ∀ c, towerOf c = t → (u.core c).fastStopped = true) ∧
    (due → s.net.colls = [] → s.net.conns = [] → 4 ≤ s.pwr.qMax → (∀ c, towerOf c = t → (s.core c).item = none ∧ (s.slice c).units = [] ∧ (s.core c).mode = .run) →
      ∃ u, exec (.fastStop t h ns) s = .next u ∧ (∀ c, towerOf c = t → (u.core c).mode = .idle ∧ (u.core c).q = 4) ∧
        (∀ c, towerOf c ≠ t → u.core c = s.core c) ∧ u.dram = s.dram ∧ u.coreStore = s.coreStore) ∧
    (fastTrigger s h = none ∨ x.fastStop = true ∨ spotTower h ≠ some t ∨ s.err.safe = true → exec (.fastStop t h ns) s = .next s) ∧
    (cool → ∃ u, exec (.fastStopRelease t) s = .next u ∧ (u.tower t).fastStop = false ∧ (u.tower t).coolSince = none ∧
      ∀ c, towerOf c = t → (u.core c).fastStopped = false) ∧
    (x.fastStop = false ∨ x.coolSince = none ∨ s.thm.coolSt = 3 → exec (.fastStopRelease t) s = .next s) ∧
    (suddenTrip s = some n → s.err.safe = false → ∃ u, exec .suddenStop s = .next u ∧ safeBy u 2) ∧
    (suddenTrip s = none ∨ s.err.safe = true → exec .suddenStop s = .next s) ∧
    (flowShort s = true → s.mpUp = true → s.err.safe = false → ∃ u, exec .orderlyStop s = .next u ∧ safeBy u 1) ∧
    (flowShort s = false ∨ s.mpUp = false ∨ s.err.safe = true → exec .orderlyStop s = .next s) ∧
    (up → safeDue s cause.val = some p → s.err.safe = false → ∃ u, exec (.safeEnter cause) s = .next u ∧ safeBy u cause.val) ∧
    (¬up ∨ safeDue s cause.val = none ∨ s.err.safe = true → exec (.safeEnter cause) s = .next s)

/-- Coolant, IO-die limits and reports (R425, R433, R435-R438, R443): the limit of a hot IO die is 95 % of the present power, the coolant's limit
moves by 50 W/s at most, low flow asks for 150 % and alerts, the MP compares and publishes. -/
def Obligations.CoolantLimitsAndReports : Prop :=
  ∀ (s : State) (d : Fin 2) (flow old at_ : Nat) (inlet outlet : Int) (n : Fin 9), s.mpUp = true →
    let x := s.thm
    let w := s.pwr.meanW
    let hot := (ioSpots d).foldl (fun acc h => hotter acc (predP s h)) (-1000)
    let due : Prop := ∀ t, s.pwr.ioAt.getD d.val none = some t → t + 10000000 ≤ s.now
    let limit (v : Option Nat) : Out := .next { s with pwr := { s.pwr with ioLimit := s.pwr.ioLimit.set d.val v, ioAt := s.pwr.ioAt.set d.val (some s.now) } }
    let had (v : Option Nat) : Prop := s.pwr.ioLimit.getD d.val none = v
    let dT := (x.outlet - x.inlet).toNat
    let f := impliedFlow s w dT
    let off : Prop := 300 < gap (x.outlet - x.inlet) (impliedRise s w x.flow : Nat) ∨ f < 4 * (gap (x.flow : Nat) (f : Nat)).toNat
    let thm (y : Thm) : Out := .next { s with thm := y }
    let step := (s.now - x.lastFlowAt) * 50 / 1000000
    let read (v : Nat) (z : Int) : Prop := exec (.pldmUpdate n) s = thm { x with pldm := smSet x.pldm v z }
    (due → 400 ≤ hot → exec (.ioDieLimit d) s = limit (some (w * 95 / 100))) ∧
    (due → hot < 388 → had (some old) → exec (.ioDieLimit d) s = limit (if 2400 ≤ old * 105 / 100 then none else some (old * 105 / 100))) ∧
    (due → 388 ≤ hot → hot < 400 → had (some old) → exec (.ioDieLimit d) s = limit (some old)) ∧
    (hot < 400 → had none → exec (.ioDieLimit d) s = .next s) ∧
    (∃ t, exec (.flowSample flow inlet outlet) s = .next t ∧ t.thm.flow = flow ∧ t.thm.inlet = inlet ∧ t.thm.outlet = outlet ∧
      t.thm.limitMw ≤ x.limitMw + step ∧ x.limitMw ≤ t.thm.limitMw + step ∧ t.thm.lastFlowAt = s.now ∧
      (x.coolSt = 0 → flow < 100 * x.flowLow.toNat → t.thm.coolSt = 1 ∧ t.thm.request = 150 ∧ t.thm.coolAlert = true ∧
        (hasRoom s srcMp → reports t srcMp thmFlowLow)) ∧
      (x.coolSt = 0 → 100 * x.flowLow.toNat ≤ flow → t.thm.coolSt = 0 ∧ 100 ≤ t.thm.request ∧ t.thm.request ≤ 255) ∧
      t = { s with thm := t.thm, err := t.err }) ∧
    (x.inlet ≤ 4000 → ¬off → exec .coolantCheck s = thm { x with flowDis := none }) ∧
    (4000 < x.inlet ∨ off → x.disagreeing = true → exec .coolantCheck s = .next s) ∧
    (4000 < x.inlet ∨ (off ∧ x.flowDis = some at_ ∧ at_ + 1000000000 ≤ s.now) → x.disagreeing = false → ∃ t, exec .coolantCheck s = .next t ∧
      t.thm.disagreeing = true ∧ t.cores = s.cores ∧ t.pwr = s.pwr ∧ (hasRoom s srcMp → reports t srcMp thmDisagree)) ∧
    (x.inlet ≤ 4000 → off → x.flowDis = none → x.disagreeing = false → exec .coolantCheck s = thm { x with flowDis := some s.now }) ∧
    (n.val = 1 → read 1 x.inlet) ∧ (n.val = 2 → read 2 x.outlet) ∧ (n.val = 3 → read 3 x.flow) ∧ (n.val = 4 → read 4 w) ∧
    (n.val = 7 → read 7 x.request) ∧ (n.val = 8 → read 8 x.coolSt) ∧ (n.val = 0 → exec (.pldmUpdate n) s = .next s) ∧
    (x.lastSummary + 10000000000 ≤ s.now → outsideNormal s = true → ∃ t,
      exec .thermalSummaryTimer s = .next t ∧ t.thm = { x with lastSummary := s.now } ∧ t.free = s.free + 11 ∧ t.cores = s.cores ∧
      (hasRoom s srcMp → reports t srcMp thmSummary)) ∧
    (s.now < x.lastSummary + 10000000000 ∨ outsideNormal s = false → exec .thermalSummaryTimer s = .next s)

/-! ## The device log (chapter 17) -/

/-- The device log and its mirror (R449-R452): the oldest record of a source enters with the next index, a full log drops its lowest severity or the
record itself and counts, drops of a source are reported, entries go to the host's ring in order, and dequeued recoveries start. -/
def Obligations.RecordsReachLogAndMirror : Prop :=
  ∀ (s : State) (src : Source) (r : LogRec) (rest : List LogRec) (qs : List Recovery) (c : CoreId) (ch : ChanId) (rc : RetrainCause) (lc : ChanLossCause)
    (u : RepairUnit) (t0 : Nat), s.memWf →
    let b := s.err.srcBuf src
    let l := s.err.entries
    let e' : LogRec := { r with index := s.err.nextIndex, parent := parentOf s.err r }
    let k := s.fn 0
    let i := r.index.toNat
    let ring := k.logRing.toNat + 128 * (i % 2 ^ k.logLog2)
    let words := (logWords r (i / 2 ^ k.logLog2 % 2 == 0)).flatMap (fun w => natLe 8 w.toNat)
    let left : State := { s with err := { s.err with ready := qs } }
    (s.mpUp = true → b.buf = r :: rest → ∃ t, exec (.logRecord src) s = .next t ∧ t = { s with err := t.err } ∧
      (b.dropped = 0 → (t.err.srcBuf src).buf = rest ∧ (t.err.srcBuf src).dropped = 0) ∧
      (b.dropped ≠ 0 → rest.length < 64 → reports t src errLogOverflow) ∧
      (l.length < 1024 → t.err.entries = l ++ [e'] ∧ t.err.nextIndex = s.err.nextIndex + 1 ∧ t.err.overflow = s.err.overflow) ∧
      (1024 ≤ l.length → t.err.overflow = (if s.err.overflow = 0xFFFF then 0xFFFF else s.err.overflow + 1) ∧
        (lowestSeverity l < r.severity → t.err.entries = dropFirst (fun x => x.severity == lowestSeverity l) l ++ [e'] ∧
          t.err.nextIndex = s.err.nextIndex + 1) ∧
        (r.severity ≤ lowestSeverity l → r.code ≠ errSafeEnter.code → t.err.entries = l ∧ t.err.nextIndex = s.err.nextIndex))) ∧
    (r.under = none → e'.parent = 0xFFFFFFFF) ∧
    (b.buf = [] ∨ s.mpUp = false → exec (.logRecord src) s = .next s) ∧
    (l = r :: rest → mirrorOpen s = true → s.fns.length = 16 → ∃ t, exec .mirrorWrite s = .next t ∧ overwrites zeroByte s.hostMem t.hostMem ring words ∧
      words.length = 128 ∧ t.err.entries = rest ∧ t.err.mirrorNext = i + 1 ∧
      (s.err.irqSeverity.toNat ≤ r.severity → t.err.mirrorUnsig = none ∧
        (k.masked.getLsbD 0 = false → t.msix = s.msix ++ [(0, 0)]) ∧ (k.masked.getLsbD 0 = true → t.msix = s.msix ∧ (t.fn 0).pba.getLsbD 0 = true)) ∧
      (r.severity < s.err.irqSeverity.toNat → t.msix = s.msix ∧ t.err.mirrorUnsig = some (s.err.mirrorUnsig.getD s.now)) ∧ t.cores = s.cores ∧ t.dram = s.dram) ∧
    (l = [] ∨ mirrorOpen s = false → exec .mirrorWrite s = .next s) ∧
    (s.err.mirrorUnsig = some t0 → k.attached = true → t0 + s.err.timerUs.toNat * 1000 ≤ s.now → k.masked.getLsbD 0 = false →
      exec .mirrorSignalTimer s = .next { s with err := { s.err with mirrorUnsig := none }, msix := s.msix ++ [(0, 0)] }) ∧
    (s.err.mirrorUnsig = none ∨ k.attached = false → exec .mirrorSignalTimer s = .next s) ∧
    (s.err.ready = [] ∨ s.err.safe = true → exec .recoveryDequeue s = .next s) ∧
    (s.err.safe = false → s.err.ready = .retrain c ch rc :: qs → exec .recoveryDequeue s = .next (retrainTrigger left c ch rc)) ∧
    (s.err.safe = false → s.err.ready = .channelLoss c ch lc :: qs → exec .recoveryDequeue s = .next (channelLoss left c ch lc)) ∧
    (s.err.safe = false → s.err.ready = .repair c u :: qs →
      let at_ : ChanId := Fin.ofNat 4 (rowBank (unitRow u 0) / 32)
      (inRepair (s.slice c) u = true ∨ (s.chan c at_).lost = true → exec .recoveryDequeue s = .next left) ∧
      (inRepair (s.slice c) u = false → (s.chan c at_).lost = false → exec .recoveryDequeue s = .next (startRepair left c u)))

/-! ## The security mailbox (chapter 18) -/

/-- A mailbox instance that is asked: Kegor has booted, no request is unanswered, the SP runs. -/
def Sys2Proof.Claims.asks (s : State) (m : MboxId) : Prop :=
  mboxOpen s = true ∧ (s.mbox m).busy = false ∧ (s.proc 1).st = .running ∧ s.sec.mbox.length = 2

/-- The response that an instance holds: its header of two words, then the payload (R466). -/
def Sys2Proof.Claims.answers (t : State) (m : MboxId) (code : Nat) (tag sid : W32) (st : BitVec 16) (payload : List Byte) : Prop :=
  (t.mbox m).status = st ∧ (t.mbox m).done = true ∧ (t.mbox m).busy = false ∧
  (t.mbox m).response = natLe 8 (code * 2 ^ 48 + payload.length % 2 ^ 16 * 2 ^ 32 + tag.toNat) ++ natLe 8 (sid.toNat * 2 ^ 32 + st.toNat * 2 ^ 16) ++ payload

/-- A response inside a session: its payload is sealed, and the session's two counters have moved on. -/
def Sys2Proof.Claims.sealed (s t : State) (m : MboxId) (code : Nat) (tag : W32) (k : Session) (st : BitVec 16) (payload : List Byte) : Prop :=
  answers t m code tag k.id st (Config.sealWith k.key k.sent payload) ∧
  (t.mbox m).session = some { k with lastAt := s.now, counter := k.counter + 1, sent := k.sent + 1 }

/-- A command of the mailbox that answers outside a session, with nothing but the mailbox changed. -/
def Sys2Proof.Claims.replies (s : State) (m : MboxId) (i : Instr) (code : Nat) (tag : W32) (st : BitVec 16) (payload : List Byte) : Prop :=
  ∃ t, exec i s = .next t ∧ answers t m code tag 0 st payload ∧ t = { s with sec := { s.sec with mbox := t.sec.mbox } }

/-- Requests, quotes and sessions (R465-R468, R472): an answer carries its header and its bytes, a busy mailbox refuses, a quote is signed for 10 s, a
session opens on it, a wrong counter or tag ends it, idle sessions and old keys end; failed entropy restarts the SP. -/
def Obligations.MailboxAnswersAndSessions : Prop :=
  ∀ (s : State) (m : MboxId) (tag sid : W32) (counter : W64) (ok : Bool) (index : BitVec 8) (off : W32) (nonce n2 : BitVec 256) (mask : BitVec 16) (ct b key sig : List Byte)
    (code : BitVec 16) (k : Session) (t0 d : Nat) (v : BitVec 512) (ports : W32) (ckn : BitVec 128) (cak : BitVec 256),
    let x := s.mbox m
    let inner : List (Instr × Nat) := [(.sessionClose m tag sid counter ok, 4), (.ownerSet m tag sid counter ok key sig, 0x10),
      (.tamperSet m tag sid counter ok mask sig, 0x11), (.extend m tag sid counter ok index v, 0x12), (.cakInstall m tag sid counter ok ports ckn cak, 0x13),
      (.bundleWrite m tag sid counter ok off key, 0x14), (.bundleCheck m tag sid counter ok, 0x15), (.dumpRead m tag sid counter ok mask off, 0x16)]
    let all : List (Instr × Nat) := inner ++ [(.getCert m tag index off, 1), (.quote m tag nonce mask, 2), (.sessionOpen m tag nonce ct, 3)]
    let known := [1, 2, 3, 4, 0x10, 0x11, 0x12, 0x13, 0x14, 0x15, 0x16].contains code.toNat
    (∀ p ∈ all, (mboxOpen s = false → exec p.1 s = .next s) ∧
      (mboxOpen s = true → x.busy = true → exec p.1 s = .next (s.log errCfgReject srcSp 0 stCfgLocked none [0x9000C, 1])) ∧
      (mboxOpen s = true → x.busy = false → (s.proc 1).st ≠ .running → s.sec.mbox.length = 2 → replies s m p.1 p.2 tag stSecBusy [])) ∧
    (asks s m → index.toNat ≤ 2 → replies s m (.getCert m tag index off) 1 tag stOk
      ((List.range (Nat.min 8192 (Config.certLen index.toNat - off.toNat))).map (fun i => Config.certByte index.toNat (off.toNat + i)))) ∧
    (asks s m → 2 < index.toNat → replies s m (.getCert m tag index off) 1 tag stSecFormat []) ∧
    (asks s m → s.sec.identityLost = true → replies s m (.quote m tag nonce mask) 2 tag stSecNoIdentity []) ∧
    (asks s m → s.sec.identityLost = false → ∃ t, exec (.quote m tag nonce mask) s = .next t ∧ answers t m 2 tag 0 stOk (quoteBytes s nonce mask s.free) ∧
      (t.mbox m).quote = some (nonce, s.now, s.free, quoteBytes s nonce mask s.free) ∧ t.free = s.free + 1 ∧ t.sec.regs = s.sec.regs ∧ t.dram = s.dram) ∧
    (asks s m → x.quote = some (nonce, t0, d, b) → s.now ≤ t0 + 10000000000 → s.sec.identityLost = false → ∃ t id, exec (.sessionOpen m tag nonce ct) s = .next t ∧
      answers t m 3 tag id stOk (natLe 4 id.toNat) ∧ (t.mbox m).quote = none ∧ id ≠ 0 ∧ (∀ n y, n ≠ m → (s.mbox n).session = some y → y.id ≠ id) ∧
      (t.mbox m).session = some { id := id, counter := 0, sent := 1, lastAt := s.now, nonce := nonce,
                                  key := Config.shake256 (Config.decap d ct ++ natLe 64 (Config.shake256 (b ++ ct)).toNat) }) ∧
    (asks s m → x.quote = none ∨ (x.quote = some (n2, t0, d, b) ∧ (n2 ≠ nonce ∨ t0 + 10000000000 < s.now)) → hasRoom s srcSp → ∃ t,
      exec (.sessionOpen m tag nonce ct) s = .next t ∧ answers t m 3 tag 0 stSecAuth [] ∧ reports t srcSp secAuthFail ∧ t.dram = s.dram) ∧
    (∀ p ∈ inner, asks s m →
      (x.session = none ∨ (x.session = some k ∧ k.id ≠ sid) → ∃ t, exec p.1 s = .next t ∧ answers t m p.2 tag 0 stSecNoSession [] ∧ t.err = s.err) ∧
      (x.session = some k → k.id = sid → counter ≠ k.counter + 1 ∨ ok = false → hasRoom s srcSp → ∃ t, exec p.1 s = .next t ∧
        answers t m p.2 tag 0 stSecAuth [] ∧ (t.mbox m).session = none ∧ reports t srcSp secAuthFail ∧ t.dram = s.dram)) ∧
    (asks s m → x.session = some k → k.id = sid → counter = k.counter + 1 → ∃ t, exec (.sessionClose m tag sid counter true) s = .next t ∧
      answers t m 4 tag sid stOk (Config.sealWith k.key k.sent []) ∧ (t.mbox m).session = none) ∧
    (x.session = some k → k.lastAt + 60000000000 ≤ s.now → exec (.sessionIdleTimeout m) s = .next (s.modMbox m (fun y => { y with session := none }))) ∧
    (x.session = none ∨ (x.session = some k ∧ s.now < k.lastAt + 60000000000) → exec (.sessionIdleTimeout m) s = .next s) ∧
    (x.quote = some (n2, t0, d, b) → t0 + 10000000000 ≤ s.now → exec (.decapsulationKeyExpiry m) s = .next (s.modMbox m (fun y => { y with quote := none }))) ∧
    (x.quote = none ∨ (x.quote = some (n2, t0, d, b) ∧ s.now < t0 + 10000000000) → exec (.decapsulationKeyExpiry m) s = .next s) ∧
    (asks s m → known = false → replies s m (.unknownMailboxCommand m tag code) code.toNat tag stSecFormat []) ∧
    (known = true → exec (.unknownMailboxCommand m tag code) s = .next s) ∧
    (canRestart s 1 = false → exec .entropyHealthFail s = .next s) ∧
    (canRestart s 1 = true → s.procs.length = 12 → (recentRestarts s 1).length < 2 → ∃ t, exec .entropyHealthFail s = .next t ∧
      (t.proc 1).st = .restarting ∧ t.sec.mbox.all (fun y => y.session.isNone) = true ∧ t.cores = s.cores ∧ t.dram = s.dram) ∧
    (canRestart s 1 = true → s.procs.length = 12 → 2 ≤ (recentRestarts s 1).length → s.err.safe = false → ∃ t,
      exec .entropyHealthFail s = .next t ∧ (t.proc 1).st = .heldDown ∧ safeBy t 4)

/-- Commands inside a session (R356, R393, R464, R466, R469): the owner, the tamper responses, a register, port keys, the other image slot and dumps,
each with the response that Table 18.2 gives it; a refused one changes nothing but the session. -/
def Obligations.SessionCommandsAct : Prop :=
  ∀ (s : State) (m : MboxId) (tag sid off : W32) (n : W64) (k : Session) (key sig bytes : List Byte) (mask entry : BitVec 16) (reg : BitVec 8)
    (v : BitVec 512) (ports : W32) (ckn : BitVec 128) (cak : BitVec 256) (e : Nat × Dump), asks s m → (s.mbox m).session = some k → k.id = sid →
    n = k.counter + 1 → s.sec.regs.length = 16 → s.net.ports.length = 32 →
    let signed (x : List Byte) : Prop := ∃ o, s.sec.owner = some o ∧ Config.verify o (x ++ natLe 32 k.nonce.toNat) sig = true
    let ws : Bool := Config.orderCode == 2
    let want : BitVec 6 := mask.setWidth 6
    let other (t : State) : Nat := if s.fw.running then t.fw.verA else t.fw.verB
    let does (i : Instr) (code : Nat) (st : BitVec 16) (p : List Byte) (f : State → Prop) : Prop := ∃ t, exec i s = .next t ∧ sealed s t m code tag k st p ∧ f t ∧
      t.cores = s.cores ∧ t.dram = s.dram
    let refused (i : Instr) (code : Nat) (st : BitVec 16) : Prop := does i code st [] (fun t => t = { s with sec := { s.sec with mbox := t.sec.mbox } })
    let owner := Instr.ownerSet m tag sid n true key sig
    let set := Instr.tamperSet m tag sid n true mask sig
    let write := Instr.bundleWrite m tag sid n true off bytes
    let good : Prop := Config.bundleSig s.sec.bundle = true ∧ (ws = false ∨ Config.bundleValidated s.sec.bundle = true) ∧ s.sec.bundleBad = false
    let check := Instr.bundleCheck m tag sid n true
    (s.sec.owner = none ∨ signed key → does owner 0x10 stOk [] (fun t => t.sec.owner = (if key.all (fun b => b == 0) then none else some key) ∧
      t.mreg 6 = Config.shake256 (natLe 64 (s.mreg 6).toNat ++
        Config.measured 6 ([Config.orderCode.toNat, s.sec.enabled.toNat] ++ (ownerDigest t).map (·.toNat))))) ∧
    (s.sec.owner ≠ none → ¬signed key → refused owner 0x10 stSecAuth) ∧
    (¬signed (natLe 2 mask.toNat) → refused set 0x11 stSecAuth) ∧
    (signed (natLe 2 mask.toNat) → ws = true → want ≠ 0x3F → refused set 0x11 stSecLocked) ∧
    (signed (natLe 2 mask.toNat) → ws = true → want = 0x3F → does set 0x11 stOk [] (fun t => t.sec.enabled = s.sec.enabled)) ∧
    (signed (natLe 2 mask.toNat) → ws = false → does set 0x11 stOk [] (fun t =>
      t.sec.enabled = (want &&& ~~~Config.lockable) ||| (s.sec.enabled &&& Config.lockable) ∧ t.sec.owner = s.sec.owner)) ∧
    (8 ≤ reg.toNat → reg.toNat ≤ 11 → does (.extend m tag sid n true reg v) 0x12 stOk
      (natLe 64 (Config.shake256 (natLe 64 (s.mreg reg.toNat).toNat ++ natLe 64 v.toNat)).toNat) (fun t =>
        t.mreg reg.toNat = Config.shake256 (natLe 64 (s.mreg reg.toNat).toNat ++ natLe 64 v.toNat) ∧ ∀ i, i ≠ reg.toNat → t.mreg i = s.mreg i)) ∧
    (reg.toNat < 8 ∨ 11 < reg.toNat → refused (.extend m tag sid n true reg v) 0x12 stSecFormat) ∧
    (ports = 0 → refused (.cakInstall m tag sid n true ports ckn cak) 0x13 stSecFormat) ∧
    (ports ≠ 0 → does (.cakInstall m tag sid n true ports ckn cak) 0x13 stOk [] (fun t => ∀ i : PortId,
      (ports.getLsbD i.val = true → (i.val, ckn, cak) ∈ t.sec.caks ∧ (t.port i).ckn = some ckn) ∧ (ports.getLsbD i.val = false → t.port i = s.port i))) ∧
    (15360 < bytes.length → refused write 0x14 stSecImage) ∧
    (bytes.length ≤ 15360 → ws = true → Config.showsUnvalidated off.toNat bytes = true → refused write 0x14 stSecLocked) ∧
    (bytes.length ≤ 15360 → ws = false ∨ Config.showsUnvalidated off.toNat bytes = false → does write 0x14 stOk (natLe 4 bytes.length) (fun t => other t = 0 ∧
      (∀ i < bytes.length, smGet t.sec.bundle (off.toNat + i) = bytes[i]?) ∧
      ∀ a, a < off.toNat ∨ off.toNat + bytes.length ≤ a → smGet t.sec.bundle a = smGet s.sec.bundle a)) ∧
    (¬good → does check 0x15 stSecImage (natLe 4 2) (fun t => other t = 2)) ∧
    (good → (Config.bundleRoll s.sec.bundle).toNat < s.sec.rollback.toNat → does check 0x15 stSecRollback (natLe 4 3) (fun t => other t = 3)) ∧
    (good → s.sec.rollback.toNat ≤ (Config.bundleRoll s.sec.bundle).toNat → does check 0x15 stOk (natLe 4 1) (fun t => other t = 1)) ∧
    (s.fw.archive[entry.toNat]? = some e → does (.dumpRead m tag sid n true entry off) 0x16 stOk
      ((List.range (Nat.min 8192 (65536 - off.toNat))).map (fun i => dumpByte e (off.toNat + i))) (fun t => t.fw = s.fw)) ∧
    (s.fw.archive[entry.toNat]? = none → refused (.dumpRead m tag sid n true entry off) 0x16 stSecFormat)

/-! ## The whole block -/

/-- A step runs the command at the front of the queue on the state with the queue's rest, whatever the command; with an empty queue the block lets
1 ns pass, which is the model's choice (log entry 3). -/
def Obligations.StepRunsTheFrontCommand : Prop :=
  ∀ (s : State) (c : Instr) (cs : List Instr),
    (s.pending = c :: cs → step s = exec c { s with pending := cs }) ∧
    (s.pending = [] → step s = .next { s with now := s.now + 1 }) ∧
    step { s with pending := c :: s.pending } = exec c s

/-- What reset leaves (R484, R487-R491, R457, R348): the standby stage is on with PERST_N asserted, no work, no SAFE, no fence; registers hold the reset values
of their tables; memory lists nothing and is canonical; register values the spec does not give are the model's (log entries 4, 5 and 6). -/
def Obligations.ResetLeavesTheTableValues : Prop :=
  let s := State.reset
  s.memWf ∧ s.pending = [] ∧ s.start.phase = .standby ∧ s.start.perst = true ∧ s.err.safe = false ∧ s.err.fences = [] ∧ s.err.entries = [] ∧ s.fencedTowers = [] ∧
  s.ctxs = [] ∧ s.regions = [] ∧ s.seqs = [] ∧ s.pages = [] ∧ s.dram = [] ∧ s.coreStore = [] ∧ s.map.epoch = 0 ∧ s.map.spread16m = 4 ∧
  s.fns.length = 16 ∧ s.procs.length = 12 ∧ s.links.length = 14 ∧ (∀ c, (s.core c).item = none ∧ (s.core c).fenced = false ∧ (s.core c).localQ = []) ∧
  (∀ f, (s.fn f).st = .init ∧ (s.fn f).pollMax = 20) ∧ (s.part 0).cores = List.range 512 ∧ (∀ l, (s.link l).oxA = 63 ∧ (s.link l).oxB = 63) ∧
  s.mem.drift = 15 ∧ s.mem.t1 = 101 ∧ s.mem.holdUs = 100 ∧ s.mem.periodH = 24 ∧ s.mem.refreshDefer = 6 ∧ s.mem.classaSlice = 24 ∧ s.mem.classaChan = 8 ∧
  s.mem.layerBudget = 5120 ∧ s.mem.actsPerRef = 16 ∧ s.net.regs.maxWindow = 512 ∧ s.net.regs.udpPort = 17924 ∧ s.fw.spMs = 20 ∧ s.fw.preemptDelta = 32 ∧
  s.pwr.capW = 2400 ∧ s.pwr.qMax = 16 ∧ s.thm.outletMax = 47 ∧ s.thm.riseMax = 12 ∧ s.thm.flowLow = 36 ∧ s.thm.margin = 5 ∧ s.thm.request = 100 ∧
  s.err.timerUs = 1000 ∧ s.err.irqSeverity = 2 ∧ s.err.linkThresh = 64 ∧ s.sec.owner = none ∧ s.sec.identityLost = false

/-- Every step keeps the four byte memories in canonical form, and every state that a run from reset reaches has them so. -/
def Obligations.MemoriesStayCanonical : Prop :=
  (∀ s t : State, s.memWf → stepsTo s t → t.memWf) ∧ ∀ t : State, Reachable t → t.memWf

/-- SAFE is left only by a reset or by loss of power (R458): every other command that meets SAFE leaves Kegor in SAFE. -/
def Obligations.SafeIsLeftOnlyByReset : Prop :=
  ∀ (i : Instr) (s t : State), s.err.safe = true → exec i s = .next t →
    t.err.safe = true ∨ i = .perstAssert ∨ (∃ mv l, i = .powerOn mv l) ∨ (∃ mv, i = .inputUndervoltage mv) ∨
    (∃ mv, i = .inputOvervoltage mv) ∨ (∃ mv, i = .inputOvervoltageReturn mv) ∨ ∃ f, i = .stageFault 10 f
end

