-- ==== Sys2Proof/Laws/Maps.lean ====
section
/-! SUPPORT. What setting, erasing and reading a key of a sparse map do. -/

namespace Sys2Proof.Laws

open Sys2Proof.Machine

/-- The key set reads as set. -/
@[simp] theorem smGet_smSet_self {α : Type} (m : List (Nat × α)) (a : Nat) (v : α) : smGet (smSet m a v) a = some v := by
  induction m with
  | nil => simp [smSet, smGet]
  | cons h t ih =>
    obtain ⟨k, x⟩ := h
    simp only [smSet]
    split
    · simp [smGet]
    · split
      · simp [smGet]
      · rename_i h1 h2
        simp only [smGet]
        rw [if_neg (fun h => h2 h.symm), ih]

/-- Another key reads as before. -/
theorem smGet_smSet_ne {α : Type} (m : List (Nat × α)) (a b : Nat) (v : α) (h : b ≠ a) : smGet (smSet m a v) b = smGet m b := by
  induction m with
  | nil => simp [smSet, smGet, Ne.symm h]
  | cons e t ih =>
    obtain ⟨k, x⟩ := e
    simp only [smSet]
    split
    · simp [smGet, Ne.symm h]
    · split
      · rename_i h2
        subst h2
        simp [smGet, Ne.symm h]
      · simp only [smGet, ih]

/-- The last of two settings of a key stands. -/
@[simp] theorem smSet_smSet {α : Type} (m : List (Nat × α)) (a : Nat) (v w : α) : smSet (smSet m a v) a w = smSet m a w := by
  induction m with
  | nil => simp [smSet]
  | cons e t ih =>
    obtain ⟨k, x⟩ := e
    simp only [smSet]
    split
    · simp [smSet]
    · split
      · simp [smSet]
      · rename_i h1 h2
        simp [smSet, h1, h2, ih]

/-- Rising keys stay rising when one is set above their bound. -/
theorem rising_smSet {α : Type} (m : List (Nat × α)) (b : Option Nat) (a : Nat) (v : α) (hb : ∀ x, b = some x → x < a)
    (hm : rising b m = true) : rising b (smSet m a v) = true := by
  induction m generalizing b with
  | nil => cases b <;> simp [smSet, rising, *]
  | cons e t ih =>
    obtain ⟨k, x⟩ := e
    have ht : rising (some k) t = true := by cases b <;> simp_all [rising]
    simp only [smSet]
    split
    · cases b <;> simp_all [rising]
    · split
      · rename_i h2
        subst h2
        cases b <;> simp_all [rising]
      · rename_i h1 h2
        have := ih (some k) (fun y hy => by cases hy; omega) ht
        cases b <;> simp_all [rising]

/-- A bound that a rising map keeps may be lowered. -/
theorem rising_weaken {α : Type} (m : List (Nat × α)) (b : Option Nat) (k : Nat) (hb : ∀ x, b = some x → x ≤ k)
    (hm : rising (some k) m = true) : rising b m = true := by
  cases m with
  | nil => cases b <;> rfl
  | cons e t =>
    obtain ⟨j, x⟩ := e
    cases b with
    | none => simp_all [rising]
    | some y =>
      have := hb y rfl
      simp only [rising, Bool.and_eq_true, decide_eq_true_eq] at hm ⊢
      exact ⟨by omega, hm.2⟩

/-- Rising keys stay rising when one is erased. -/
theorem rising_smErase {α : Type} (m : List (Nat × α)) (b : Option Nat) (a : Nat) (hm : rising b m = true) :
    rising b (smErase m a) = true := by
  induction m generalizing b with
  | nil => simpa [smErase] using hm
  | cons e t ih =>
    obtain ⟨k, x⟩ := e
    have ht : rising (some k) t = true := by cases b <;> simp_all [rising]
    have hk : ∀ y, b = some y → y ≤ k := by
      intro y hy; subst hy; simp [rising] at hm; omega
    simp only [smErase]
    split
    · exact rising_weaken t b k hk ht
    · have := ih (some k) ht
      cases b <;> simp_all [rising]

/-- A key below the bound of a rising map is absent. -/
theorem smGet_below {α : Type} (m : List (Nat × α)) (k a : Nat) (hm : rising (some k) m = true) (h : a ≤ k) : smGet m a = none := by
  induction m generalizing k with
  | nil => rfl
  | cons e t ih =>
    obtain ⟨j, x⟩ := e
    simp only [rising, Bool.and_eq_true, decide_eq_true_eq] at hm
    simp only [smGet]
    rw [if_neg (by omega)]
    exact ih j hm.2 (by omega)

/-- An erased key of a rising map is absent. -/
theorem smGet_smErase_self {α : Type} (m : List (Nat × α)) (b : Option Nat) (a : Nat) (hm : rising b m = true) :
    smGet (smErase m a) a = none := by
  induction m generalizing b with
  | nil => rfl
  | cons e t ih =>
    obtain ⟨k, x⟩ := e
    have ht : rising (some k) t = true := by cases b <;> simp_all [rising]
    simp only [smErase]
    split
    · rename_i h; subst h; exact smGet_below t a a ht (Nat.le_refl a)
    · rename_i h
      simp only [smGet]
      rw [if_neg (fun h' => h h'.symm)]
      exact ih (some k) ht

/-- A key that is not erased reads as before. -/
theorem smGet_smErase_ne {α : Type} (m : List (Nat × α)) (a b : Nat) (h : b ≠ a) : smGet (smErase m a) b = smGet m b := by
  induction m with
  | nil => rfl
  | cons e t ih =>
    obtain ⟨k, x⟩ := e
    simp only [smErase]
    split
    · rename_i h2; subst h2; simp [smGet, Ne.symm h]
    · simp only [smGet, ih]

end Sys2Proof.Laws
end

