-- ==== Sys2Proof/Laws/State.lean ====
section
/-! SUPPORT. The fields of the state after each of its updates. -/

namespace Sys2Proof.Laws

open Sys2Proof.Machine

/-! ## Cores -/

@[simp] theorem setCore_core (s : State) (c : CoreId) (k : Core) : (s.setCore c k).core c = k := by
  simp [State.core, State.setCore]
theorem setCore_core_ne (s : State) (c x : CoreId) (k : Core) (h : x ≠ c) : (s.setCore c k).core x = s.core x := by
  simp only [State.core, State.setCore]
  rw [smGet_smSet_ne _ _ _ _ (fun e => h (Fin.ext e))]
@[simp] theorem setCore_setCore (s : State) (c : CoreId) (k k' : Core) : (s.setCore c k).setCore c k' = s.setCore c k' := by
  simp [State.setCore]
@[simp] theorem modCore_eq (s : State) (c : CoreId) (f : Core → Core) : s.modCore c f = s.setCore c (f (s.core c)) := rfl
@[simp] theorem setCore_pending (s : State) (c : CoreId) (k : Core) : (s.setCore c k).pending = s.pending := rfl
@[simp] theorem setCore_now (s : State) (c : CoreId) (k : Core) : (s.setCore c k).now = s.now := rfl
@[simp] theorem setCore_free (s : State) (c : CoreId) (k : Core) : (s.setCore c k).free = s.free := rfl
@[simp] theorem setCore_coreStore (s : State) (c : CoreId) (k : Core) : (s.setCore c k).coreStore = s.coreStore := rfl
@[simp] theorem setCore_sems (s : State) (c : CoreId) (k : Core) : (s.setCore c k).sems = s.sems := rfl
@[simp] theorem setCore_slices (s : State) (c : CoreId) (k : Core) : (s.setCore c k).slices = s.slices := rfl
@[simp] theorem setCore_dram (s : State) (c : CoreId) (k : Core) : (s.setCore c k).dram = s.dram := rfl
@[simp] theorem setCore_farMem (s : State) (c : CoreId) (k : Core) : (s.setCore c k).farMem = s.farMem := rfl
@[simp] theorem setCore_regions (s : State) (c : CoreId) (k : Core) : (s.setCore c k).regions = s.regions := rfl
@[simp] theorem setCore_map (s : State) (c : CoreId) (k : Core) : (s.setCore c k).map = s.map := rfl
@[simp] theorem setCore_far (s : State) (c : CoreId) (k : Core) : (s.setCore c k).far = s.far := rfl
@[simp] theorem setCore_mem (s : State) (c : CoreId) (k : Core) : (s.setCore c k).mem = s.mem := rfl
@[simp] theorem setCore_seqs (s : State) (c : CoreId) (k : Core) : (s.setCore c k).seqs = s.seqs := rfl
@[simp] theorem setCore_pages (s : State) (c : CoreId) (k : Core) : (s.setCore c k).pages = s.pages := rfl
@[simp] theorem setCore_extents (s : State) (c : CoreId) (k : Core) : (s.setCore c k).extents = s.extents := rfl
@[simp] theorem setCore_badRows (s : State) (c : CoreId) (k : Core) : (s.setCore c k).badRows = s.badRows := rfl
@[simp] theorem setCore_tables (s : State) (c : CoreId) (k : Core) : (s.setCore c k).tables = s.tables := rfl
@[simp] theorem setCore_links (s : State) (c : CoreId) (k : Core) : (s.setCore c k).links = s.links := rfl
@[simp] theorem setCore_clks (s : State) (c : CoreId) (k : Core) : (s.setCore c k).clks = s.clks := rfl
@[simp] theorem setCore_sync (s : State) (c : CoreId) (k : Core) : (s.setCore c k).sync = s.sync := rfl
@[simp] theorem setCore_fencedTowers (s : State) (c : CoreId) (k : Core) : (s.setCore c k).fencedTowers = s.fencedTowers := rfl
@[simp] theorem setCore_fns (s : State) (c : CoreId) (k : Core) : (s.setCore c k).fns = s.fns := rfl
@[simp] theorem setCore_ctxs (s : State) (c : CoreId) (k : Core) : (s.setCore c k).ctxs = s.ctxs := rfl
@[simp] theorem setCore_parts (s : State) (c : CoreId) (k : Core) : (s.setCore c k).parts = s.parts := rfl
@[simp] theorem setCore_hostMem (s : State) (c : CoreId) (k : Core) : (s.setCore c k).hostMem = s.hostMem := rfl
@[simp] theorem setCore_msix (s : State) (c : CoreId) (k : Core) : (s.setCore c k).msix = s.msix := rfl
@[simp] theorem setCore_net (s : State) (c : CoreId) (k : Core) : (s.setCore c k).net = s.net := rfl
@[simp] theorem setCore_procs (s : State) (c : CoreId) (k : Core) : (s.setCore c k).procs = s.procs := rfl
@[simp] theorem setCore_fw (s : State) (c : CoreId) (k : Core) : (s.setCore c k).fw = s.fw := rfl
@[simp] theorem setCore_sched (s : State) (c : CoreId) (k : Core) : (s.setCore c k).sched = s.sched := rfl
@[simp] theorem setCore_pwr (s : State) (c : CoreId) (k : Core) : (s.setCore c k).pwr = s.pwr := rfl
@[simp] theorem setCore_thm (s : State) (c : CoreId) (k : Core) : (s.setCore c k).thm = s.thm := rfl
@[simp] theorem setCore_err (s : State) (c : CoreId) (k : Core) : (s.setCore c k).err = s.err := rfl
@[simp] theorem setCore_sec (s : State) (c : CoreId) (k : Core) : (s.setCore c k).sec = s.sec := rfl
@[simp] theorem setCore_start (s : State) (c : CoreId) (k : Core) : (s.setCore c k).start = s.start := rfl

/-! ## Slices -/

@[simp] theorem setSlice_pending (s : State) (c : CoreId) (k : Slice) : (s.setSlice c k).pending = s.pending := rfl
@[simp] theorem setSlice_now (s : State) (c : CoreId) (k : Slice) : (s.setSlice c k).now = s.now := rfl
@[simp] theorem setSlice_free (s : State) (c : CoreId) (k : Slice) : (s.setSlice c k).free = s.free := rfl
@[simp] theorem setSlice_coreStore (s : State) (c : CoreId) (k : Slice) : (s.setSlice c k).coreStore = s.coreStore := rfl
@[simp] theorem setSlice_sems (s : State) (c : CoreId) (k : Slice) : (s.setSlice c k).sems = s.sems := rfl
@[simp] theorem setSlice_cores (s : State) (c : CoreId) (k : Slice) : (s.setSlice c k).cores = s.cores := rfl
@[simp] theorem setSlice_dram (s : State) (c : CoreId) (k : Slice) : (s.setSlice c k).dram = s.dram := rfl
@[simp] theorem setSlice_farMem (s : State) (c : CoreId) (k : Slice) : (s.setSlice c k).farMem = s.farMem := rfl
@[simp] theorem setSlice_regions (s : State) (c : CoreId) (k : Slice) : (s.setSlice c k).regions = s.regions := rfl
@[simp] theorem setSlice_map (s : State) (c : CoreId) (k : Slice) : (s.setSlice c k).map = s.map := rfl
@[simp] theorem setSlice_far (s : State) (c : CoreId) (k : Slice) : (s.setSlice c k).far = s.far := rfl
@[simp] theorem setSlice_mem (s : State) (c : CoreId) (k : Slice) : (s.setSlice c k).mem = s.mem := rfl
@[simp] theorem setSlice_seqs (s : State) (c : CoreId) (k : Slice) : (s.setSlice c k).seqs = s.seqs := rfl
@[simp] theorem setSlice_pages (s : State) (c : CoreId) (k : Slice) : (s.setSlice c k).pages = s.pages := rfl
@[simp] theorem setSlice_extents (s : State) (c : CoreId) (k : Slice) : (s.setSlice c k).extents = s.extents := rfl
@[simp] theorem setSlice_badRows (s : State) (c : CoreId) (k : Slice) : (s.setSlice c k).badRows = s.badRows := rfl
@[simp] theorem setSlice_tables (s : State) (c : CoreId) (k : Slice) : (s.setSlice c k).tables = s.tables := rfl
@[simp] theorem setSlice_links (s : State) (c : CoreId) (k : Slice) : (s.setSlice c k).links = s.links := rfl
@[simp] theorem setSlice_clks (s : State) (c : CoreId) (k : Slice) : (s.setSlice c k).clks = s.clks := rfl
@[simp] theorem setSlice_sync (s : State) (c : CoreId) (k : Slice) : (s.setSlice c k).sync = s.sync := rfl
@[simp] theorem setSlice_fencedTowers (s : State) (c : CoreId) (k : Slice) : (s.setSlice c k).fencedTowers = s.fencedTowers := rfl
@[simp] theorem setSlice_fns (s : State) (c : CoreId) (k : Slice) : (s.setSlice c k).fns = s.fns := rfl
@[simp] theorem setSlice_ctxs (s : State) (c : CoreId) (k : Slice) : (s.setSlice c k).ctxs = s.ctxs := rfl
@[simp] theorem setSlice_parts (s : State) (c : CoreId) (k : Slice) : (s.setSlice c k).parts = s.parts := rfl
@[simp] theorem setSlice_hostMem (s : State) (c : CoreId) (k : Slice) : (s.setSlice c k).hostMem = s.hostMem := rfl
@[simp] theorem setSlice_msix (s : State) (c : CoreId) (k : Slice) : (s.setSlice c k).msix = s.msix := rfl
@[simp] theorem setSlice_net (s : State) (c : CoreId) (k : Slice) : (s.setSlice c k).net = s.net := rfl
@[simp] theorem setSlice_procs (s : State) (c : CoreId) (k : Slice) : (s.setSlice c k).procs = s.procs := rfl
@[simp] theorem setSlice_fw (s : State) (c : CoreId) (k : Slice) : (s.setSlice c k).fw = s.fw := rfl
@[simp] theorem setSlice_sched (s : State) (c : CoreId) (k : Slice) : (s.setSlice c k).sched = s.sched := rfl
@[simp] theorem setSlice_pwr (s : State) (c : CoreId) (k : Slice) : (s.setSlice c k).pwr = s.pwr := rfl
@[simp] theorem setSlice_thm (s : State) (c : CoreId) (k : Slice) : (s.setSlice c k).thm = s.thm := rfl
@[simp] theorem setSlice_err (s : State) (c : CoreId) (k : Slice) : (s.setSlice c k).err = s.err := rfl
@[simp] theorem setSlice_sec (s : State) (c : CoreId) (k : Slice) : (s.setSlice c k).sec = s.sec := rfl
@[simp] theorem setSlice_start (s : State) (c : CoreId) (k : Slice) : (s.setSlice c k).start = s.start := rfl
@[simp] theorem setSlice_slice (s : State) (c : CoreId) (k : Slice) : (s.setSlice c k).slice c = k := by
  simp [State.slice, State.setSlice]
theorem setSlice_slice_ne (s : State) (c x : CoreId) (k : Slice) (h : x ≠ c) : (s.setSlice c k).slice x = s.slice x := by
  simp only [State.slice, State.setSlice]
  rw [smGet_smSet_ne _ _ _ _ (fun e => h (Fin.ext e))]
@[simp] theorem setSlice_core (s : State) (c x : CoreId) (k : Slice) : (s.setSlice c k).core x = s.core x := rfl
@[simp] theorem setCore_slice (s : State) (c x : CoreId) (k : Core) : (s.setCore c k).slice x = s.slice x := rfl

/-! ## Core store -/

@[simp] theorem csWrite_slices (s : State) (c : CoreId) (a : Nat) (bs : List Byte) : (s.csWrite c a bs).slices = s.slices := by
  simp only [State.csWrite]; split <;> rfl
@[simp] theorem csWrite_pending (s : State) (c : CoreId) (a : Nat) (bs : List Byte) : (s.csWrite c a bs).pending = s.pending := by
  simp only [State.csWrite]; split <;> rfl
@[simp] theorem csWrite_now (s : State) (c : CoreId) (a : Nat) (bs : List Byte) : (s.csWrite c a bs).now = s.now := by
  simp only [State.csWrite]; split <;> rfl
@[simp] theorem csWrite_free (s : State) (c : CoreId) (a : Nat) (bs : List Byte) : (s.csWrite c a bs).free = s.free := by
  simp only [State.csWrite]; split <;> rfl
@[simp] theorem csWrite_sems (s : State) (c : CoreId) (a : Nat) (bs : List Byte) : (s.csWrite c a bs).sems = s.sems := by
  simp only [State.csWrite]; split <;> rfl
@[simp] theorem csWrite_dram (s : State) (c : CoreId) (a : Nat) (bs : List Byte) : (s.csWrite c a bs).dram = s.dram := by
  simp only [State.csWrite]; split <;> rfl
@[simp] theorem csWrite_farMem (s : State) (c : CoreId) (a : Nat) (bs : List Byte) : (s.csWrite c a bs).farMem = s.farMem := by
  simp only [State.csWrite]; split <;> rfl
@[simp] theorem csWrite_regions (s : State) (c : CoreId) (a : Nat) (bs : List Byte) : (s.csWrite c a bs).regions = s.regions := by
  simp only [State.csWrite]; split <;> rfl
@[simp] theorem csWrite_map (s : State) (c : CoreId) (a : Nat) (bs : List Byte) : (s.csWrite c a bs).map = s.map := by
  simp only [State.csWrite]; split <;> rfl
@[simp] theorem csWrite_far (s : State) (c : CoreId) (a : Nat) (bs : List Byte) : (s.csWrite c a bs).far = s.far := by
  simp only [State.csWrite]; split <;> rfl
@[simp] theorem csWrite_mem (s : State) (c : CoreId) (a : Nat) (bs : List Byte) : (s.csWrite c a bs).mem = s.mem := by
  simp only [State.csWrite]; split <;> rfl
@[simp] theorem csWrite_seqs (s : State) (c : CoreId) (a : Nat) (bs : List Byte) : (s.csWrite c a bs).seqs = s.seqs := by
  simp only [State.csWrite]; split <;> rfl
@[simp] theorem csWrite_pages (s : State) (c : CoreId) (a : Nat) (bs : List Byte) : (s.csWrite c a bs).pages = s.pages := by
  simp only [State.csWrite]; split <;> rfl
@[simp] theorem csWrite_extents (s : State) (c : CoreId) (a : Nat) (bs : List Byte) : (s.csWrite c a bs).extents = s.extents := by
  simp only [State.csWrite]; split <;> rfl
@[simp] theorem csWrite_badRows (s : State) (c : CoreId) (a : Nat) (bs : List Byte) : (s.csWrite c a bs).badRows = s.badRows := by
  simp only [State.csWrite]; split <;> rfl
@[simp] theorem csWrite_tables (s : State) (c : CoreId) (a : Nat) (bs : List Byte) : (s.csWrite c a bs).tables = s.tables := by
  simp only [State.csWrite]; split <;> rfl
@[simp] theorem csWrite_links (s : State) (c : CoreId) (a : Nat) (bs : List Byte) : (s.csWrite c a bs).links = s.links := by
  simp only [State.csWrite]; split <;> rfl
@[simp] theorem csWrite_clks (s : State) (c : CoreId) (a : Nat) (bs : List Byte) : (s.csWrite c a bs).clks = s.clks := by
  simp only [State.csWrite]; split <;> rfl
@[simp] theorem csWrite_sync (s : State) (c : CoreId) (a : Nat) (bs : List Byte) : (s.csWrite c a bs).sync = s.sync := by
  simp only [State.csWrite]; split <;> rfl
@[simp] theorem csWrite_fencedTowers (s : State) (c : CoreId) (a : Nat) (bs : List Byte) : (s.csWrite c a bs).fencedTowers = s.fencedTowers := by
  simp only [State.csWrite]; split <;> rfl
@[simp] theorem csWrite_fns (s : State) (c : CoreId) (a : Nat) (bs : List Byte) : (s.csWrite c a bs).fns = s.fns := by
  simp only [State.csWrite]; split <;> rfl
@[simp] theorem csWrite_ctxs (s : State) (c : CoreId) (a : Nat) (bs : List Byte) : (s.csWrite c a bs).ctxs = s.ctxs := by
  simp only [State.csWrite]; split <;> rfl
@[simp] theorem csWrite_parts (s : State) (c : CoreId) (a : Nat) (bs : List Byte) : (s.csWrite c a bs).parts = s.parts := by
  simp only [State.csWrite]; split <;> rfl
@[simp] theorem csWrite_hostMem (s : State) (c : CoreId) (a : Nat) (bs : List Byte) : (s.csWrite c a bs).hostMem = s.hostMem := by
  simp only [State.csWrite]; split <;> rfl
@[simp] theorem csWrite_msix (s : State) (c : CoreId) (a : Nat) (bs : List Byte) : (s.csWrite c a bs).msix = s.msix := by
  simp only [State.csWrite]; split <;> rfl
@[simp] theorem csWrite_net (s : State) (c : CoreId) (a : Nat) (bs : List Byte) : (s.csWrite c a bs).net = s.net := by
  simp only [State.csWrite]; split <;> rfl
@[simp] theorem csWrite_procs (s : State) (c : CoreId) (a : Nat) (bs : List Byte) : (s.csWrite c a bs).procs = s.procs := by
  simp only [State.csWrite]; split <;> rfl
@[simp] theorem csWrite_fw (s : State) (c : CoreId) (a : Nat) (bs : List Byte) : (s.csWrite c a bs).fw = s.fw := by
  simp only [State.csWrite]; split <;> rfl
@[simp] theorem csWrite_sched (s : State) (c : CoreId) (a : Nat) (bs : List Byte) : (s.csWrite c a bs).sched = s.sched := by
  simp only [State.csWrite]; split <;> rfl
@[simp] theorem csWrite_pwr (s : State) (c : CoreId) (a : Nat) (bs : List Byte) : (s.csWrite c a bs).pwr = s.pwr := by
  simp only [State.csWrite]; split <;> rfl
@[simp] theorem csWrite_thm (s : State) (c : CoreId) (a : Nat) (bs : List Byte) : (s.csWrite c a bs).thm = s.thm := by
  simp only [State.csWrite]; split <;> rfl
@[simp] theorem csWrite_err (s : State) (c : CoreId) (a : Nat) (bs : List Byte) : (s.csWrite c a bs).err = s.err := by
  simp only [State.csWrite]; split <;> rfl
@[simp] theorem csWrite_sec (s : State) (c : CoreId) (a : Nat) (bs : List Byte) : (s.csWrite c a bs).sec = s.sec := by
  simp only [State.csWrite]; split <;> rfl
@[simp] theorem csWrite_start (s : State) (c : CoreId) (a : Nat) (bs : List Byte) : (s.csWrite c a bs).start = s.start := by
  simp only [State.csWrite]; split <;> rfl
@[simp] theorem csWrite_coreStore (s : State) (c : CoreId) (a : Nat) (bs : List Byte) :
    (s.csWrite c a bs).coreStore = memWriteList zeroByte s.coreStore (c.val * coreStoreSize + a) bs := by
  simp only [State.csWrite]; split <;> rfl
theorem csWrite_core_ne (s : State) (c x : CoreId) (a : Nat) (bs : List Byte) (h : x ≠ c) : (s.csWrite c a bs).core x = s.core x := by
  simp only [State.csWrite]
  split
  · rfl
  · exact setCore_core_ne _ c x _ h

/-! ## Records and free values -/

@[simp] theorem emit_cores (s : State) (r : LogRec) : (s.emit r).cores = s.cores := rfl
@[simp] theorem emit_slices (s : State) (r : LogRec) : (s.emit r).slices = s.slices := rfl
@[simp] theorem emit_pending (s : State) (r : LogRec) : (s.emit r).pending = s.pending := rfl
@[simp] theorem emit_now (s : State) (r : LogRec) : (s.emit r).now = s.now := rfl
@[simp] theorem emit_free (s : State) (r : LogRec) : (s.emit r).free = s.free := rfl
@[simp] theorem emit_coreStore (s : State) (r : LogRec) : (s.emit r).coreStore = s.coreStore := rfl
@[simp] theorem emit_sems (s : State) (r : LogRec) : (s.emit r).sems = s.sems := rfl
@[simp] theorem emit_dram (s : State) (r : LogRec) : (s.emit r).dram = s.dram := rfl
@[simp] theorem emit_farMem (s : State) (r : LogRec) : (s.emit r).farMem = s.farMem := rfl
@[simp] theorem emit_regions (s : State) (r : LogRec) : (s.emit r).regions = s.regions := rfl
@[simp] theorem emit_map (s : State) (r : LogRec) : (s.emit r).map = s.map := rfl
@[simp] theorem emit_far (s : State) (r : LogRec) : (s.emit r).far = s.far := rfl
@[simp] theorem emit_mem (s : State) (r : LogRec) : (s.emit r).mem = s.mem := rfl
@[simp] theorem emit_seqs (s : State) (r : LogRec) : (s.emit r).seqs = s.seqs := rfl
@[simp] theorem emit_pages (s : State) (r : LogRec) : (s.emit r).pages = s.pages := rfl
@[simp] theorem emit_extents (s : State) (r : LogRec) : (s.emit r).extents = s.extents := rfl
@[simp] theorem emit_badRows (s : State) (r : LogRec) : (s.emit r).badRows = s.badRows := rfl
@[simp] theorem emit_tables (s : State) (r : LogRec) : (s.emit r).tables = s.tables := rfl
@[simp] theorem emit_links (s : State) (r : LogRec) : (s.emit r).links = s.links := rfl
@[simp] theorem emit_clks (s : State) (r : LogRec) : (s.emit r).clks = s.clks := rfl
@[simp] theorem emit_sync (s : State) (r : LogRec) : (s.emit r).sync = s.sync := rfl
@[simp] theorem emit_fencedTowers (s : State) (r : LogRec) : (s.emit r).fencedTowers = s.fencedTowers := rfl
@[simp] theorem emit_fns (s : State) (r : LogRec) : (s.emit r).fns = s.fns := rfl
@[simp] theorem emit_ctxs (s : State) (r : LogRec) : (s.emit r).ctxs = s.ctxs := rfl
@[simp] theorem emit_parts (s : State) (r : LogRec) : (s.emit r).parts = s.parts := rfl
@[simp] theorem emit_hostMem (s : State) (r : LogRec) : (s.emit r).hostMem = s.hostMem := rfl
@[simp] theorem emit_msix (s : State) (r : LogRec) : (s.emit r).msix = s.msix := rfl
@[simp] theorem emit_net (s : State) (r : LogRec) : (s.emit r).net = s.net := rfl
@[simp] theorem emit_procs (s : State) (r : LogRec) : (s.emit r).procs = s.procs := rfl
@[simp] theorem emit_fw (s : State) (r : LogRec) : (s.emit r).fw = s.fw := rfl
@[simp] theorem emit_sched (s : State) (r : LogRec) : (s.emit r).sched = s.sched := rfl
@[simp] theorem emit_pwr (s : State) (r : LogRec) : (s.emit r).pwr = s.pwr := rfl
@[simp] theorem emit_thm (s : State) (r : LogRec) : (s.emit r).thm = s.thm := rfl
@[simp] theorem emit_sec (s : State) (r : LogRec) : (s.emit r).sec = s.sec := rfl
@[simp] theorem emit_start (s : State) (r : LogRec) : (s.emit r).start = s.start := rfl
@[simp] theorem drew_cores (s : State) (n : Nat) : (s.drew n).cores = s.cores := rfl
@[simp] theorem drew_slices (s : State) (n : Nat) : (s.drew n).slices = s.slices := rfl
@[simp] theorem drew_pending (s : State) (n : Nat) : (s.drew n).pending = s.pending := rfl
@[simp] theorem drew_now (s : State) (n : Nat) : (s.drew n).now = s.now := rfl
@[simp] theorem drew_coreStore (s : State) (n : Nat) : (s.drew n).coreStore = s.coreStore := rfl
@[simp] theorem drew_sems (s : State) (n : Nat) : (s.drew n).sems = s.sems := rfl
@[simp] theorem drew_dram (s : State) (n : Nat) : (s.drew n).dram = s.dram := rfl
@[simp] theorem drew_farMem (s : State) (n : Nat) : (s.drew n).farMem = s.farMem := rfl
@[simp] theorem drew_regions (s : State) (n : Nat) : (s.drew n).regions = s.regions := rfl
@[simp] theorem drew_map (s : State) (n : Nat) : (s.drew n).map = s.map := rfl
@[simp] theorem drew_far (s : State) (n : Nat) : (s.drew n).far = s.far := rfl
@[simp] theorem drew_mem (s : State) (n : Nat) : (s.drew n).mem = s.mem := rfl
@[simp] theorem drew_seqs (s : State) (n : Nat) : (s.drew n).seqs = s.seqs := rfl
@[simp] theorem drew_pages (s : State) (n : Nat) : (s.drew n).pages = s.pages := rfl
@[simp] theorem drew_extents (s : State) (n : Nat) : (s.drew n).extents = s.extents := rfl
@[simp] theorem drew_badRows (s : State) (n : Nat) : (s.drew n).badRows = s.badRows := rfl
@[simp] theorem drew_tables (s : State) (n : Nat) : (s.drew n).tables = s.tables := rfl
@[simp] theorem drew_links (s : State) (n : Nat) : (s.drew n).links = s.links := rfl
@[simp] theorem drew_clks (s : State) (n : Nat) : (s.drew n).clks = s.clks := rfl
@[simp] theorem drew_sync (s : State) (n : Nat) : (s.drew n).sync = s.sync := rfl
@[simp] theorem drew_fencedTowers (s : State) (n : Nat) : (s.drew n).fencedTowers = s.fencedTowers := rfl
@[simp] theorem drew_fns (s : State) (n : Nat) : (s.drew n).fns = s.fns := rfl
@[simp] theorem drew_ctxs (s : State) (n : Nat) : (s.drew n).ctxs = s.ctxs := rfl
@[simp] theorem drew_parts (s : State) (n : Nat) : (s.drew n).parts = s.parts := rfl
@[simp] theorem drew_hostMem (s : State) (n : Nat) : (s.drew n).hostMem = s.hostMem := rfl
@[simp] theorem drew_msix (s : State) (n : Nat) : (s.drew n).msix = s.msix := rfl
@[simp] theorem drew_net (s : State) (n : Nat) : (s.drew n).net = s.net := rfl
@[simp] theorem drew_procs (s : State) (n : Nat) : (s.drew n).procs = s.procs := rfl
@[simp] theorem drew_fw (s : State) (n : Nat) : (s.drew n).fw = s.fw := rfl
@[simp] theorem drew_sched (s : State) (n : Nat) : (s.drew n).sched = s.sched := rfl
@[simp] theorem drew_pwr (s : State) (n : Nat) : (s.drew n).pwr = s.pwr := rfl
@[simp] theorem drew_thm (s : State) (n : Nat) : (s.drew n).thm = s.thm := rfl
@[simp] theorem drew_err (s : State) (n : Nat) : (s.drew n).err = s.err := rfl
@[simp] theorem drew_sec (s : State) (n : Nat) : (s.drew n).sec = s.sec := rfl
@[simp] theorem drew_start (s : State) (n : Nat) : (s.drew n).start = s.start := rfl
@[simp] theorem drew_free (s : State) (n : Nat) : (s.drew n).free = s.free + n := rfl

/-! ## Cores by field -/

@[simp] theorem advance_pc (k : Core) : k.advance.pc = k.pc + 1 := rfl
@[simp] theorem advance_regs (k : Core) : k.advance.regs = k.regs := rfl
@[simp] theorem advance_wait (k : Core) : k.advance.wait = k.wait := rfl
@[simp] theorem setReg_pc (k : Core) (d : BitVec 5) (v : W64) : (k.setReg d v).pc = k.pc := by unfold Core.setReg; split <;> rfl
@[simp] theorem setReg_wait (k : Core) (d : BitVec 5) (v : W64) : (k.setReg d v).wait = k.wait := by unfold Core.setReg; split <;> rfl
@[simp] theorem setReg_stalled (k : Core) (d : BitVec 5) (v : W64) : (k.setReg d v).stalled = k.stalled := by
  unfold Core.setReg; split <;> rfl
@[simp] theorem setReg_queues (k : Core) (d : BitVec 5) (v : W64) : (k.setReg d v).queues = k.queues := by
  unfold Core.setReg; split <;> rfl

end Sys2Proof.Laws
end

