-- ==== Sys2Proof/Laws/Dispatch.lean ====
section
/-! SUPPORT. What dispatching an instruction does, and what settling does to a core that waits for nothing. -/

namespace Sys2Proof.Laws

open Sys2Proof.Machine

/-- A core dispatches when a work item runs, nothing waits or is stalled, and its island runs. -/
theorem dispatching_iff (k : Core) :
    k.dispatching = true ↔ k.item.isSome = true ∧ k.wait = .none ∧ k.stalled = none ∧ k.paused = false ∧ k.mode = .run := by
  simp [Core.dispatching, and_assoc]

/-- Nothing stalled: there is nothing to enter a queue. -/
theorem unstall_of_none (k : Core) (h : k.stalled = none) : k.unstall = k := by
  unfold Core.unstall; rw [h]

/-- A core that waits for nothing and has nothing stalled settles as it is. -/
theorem settle_idle (s : State) (c : CoreId) (k : Core) (hw : k.wait = .none) (hs : k.stalled = none) :
    settle c (s.setCore c k) = s.setCore c k := by
  simp [settle, unstall_of_none k hs, hw]

/-- A core that failed settles as it is. -/
theorem settle_faulted (s : State) (c : CoreId) (k : Core) (st : BitVec 16) (pc : Nat) (hw : k.wait = .faulted st pc)
    (hs : k.stalled = none) : settle c (s.setCore c k) = s.setCore c k := by
  simp [settle, unstall_of_none k hs, hw]

/-- A core that dispatches runs the instruction, then settles. -/
theorem dispatch_next (c : CoreId) (s : State) (f : Core → State → State) (h : (s.core c).dispatching = true) :
    dispatch c s f = .next (settle c (f (s.core c) s)) := by
  simp [dispatch, h]

/-- A core that does not dispatch is left alone. -/
theorem dispatch_not (c : CoreId) (s : State) (f : Core → State → State) (h : (s.core c).dispatching = false) :
    dispatch c s f = .next s := by
  simp [dispatch, h]

/-- The failure of a core that waits for nothing. -/
theorem fault_of_none (k : Core) (st : BitVec 16) (pc : Nat) (h : k.wait = .none) :
    k.fault st pc = { k with wait := .faulted st pc, queues := [], stalled := none } := by
  unfold Core.fault; rw [h]

/-- An instruction that fails at dispatch. -/
theorem dispatch_fault (c : CoreId) (s : State) (st : BitVec 16) (h : (s.core c).dispatching = true) :
    settle c (s.setCore c ((s.core c).fault st (s.core c).pc)) =
      s.setCore c { s.core c with wait := .faulted st (s.core c).pc, queues := [], stalled := none } := by
  have hw := ((dispatching_iff _).1 h).2.1
  rw [fault_of_none _ _ _ hw]
  exact settle_faulted s c _ st _ rfl rfl

/-- An instruction of one cycle: the core it leaves waits for nothing. -/
theorem dispatch_core (c : CoreId) (s : State) (k' : Core) (hw : k'.wait = .none) (hs : k'.stalled = none) :
    settle c (s.setCore c k') = s.setCore c k' := settle_idle s c k' hw hs

/-- Register 0 reads as 0 whatever the register list holds. -/
@[simp] theorem reg_zero (k : Core) : k.reg 0 = 0 := rfl
/-- A write of register 0 changes nothing. -/
@[simp] theorem setReg_zero (k : Core) (v : W64) : k.setReg 0 v = k := rfl

end Sys2Proof.Laws
end

