-- ==== Sys2Proof/Laws/Memory.lean ====
section
/-! SUPPORT. The byte memories: a read after a write, and the canonical form that every memory operation keeps. -/

namespace Sys2Proof.Laws

open Sys2Proof.Machine

variable {d : Nat → Byte}

theorem wf_rising {m : Memory} (h : Memory.wf d m = true) : rising none m = true := by simp_all [Memory.wf]

/-- Members of a map with a key set. -/
theorem mem_smSet {m : Memory} {a : Nat} {v : Byte} {e : Host.Cell} (h : e ∈ smSet m a v) : e = (a, v) ∨ e ∈ m := by
  induction m with
  | nil => simp [smSet] at h; exact .inl h
  | cons x t ih =>
    obtain ⟨k, y⟩ := x
    simp only [smSet] at h
    split at h
    · simp at h; rcases h with h | h | h <;> simp [h]
    · split at h
      · simp at h; rcases h with h | h <;> simp [h]
      · simp at h; rcases h with h | h
        · simp [h]
        · rcases ih h with h | h <;> simp [h]

/-- Members of a map with a key erased. -/
theorem mem_smErase {m : Memory} {a : Nat} {e : Host.Cell} (h : e ∈ smErase m a) : e ∈ m := by
  induction m with
  | nil => simp [smErase] at h
  | cons x t ih =>
    obtain ⟨k, y⟩ := x
    simp only [smErase] at h
    split at h
    · simp [h]
    · simp at h; rcases h with h | h
      · simp [h]
      · simp [ih h]

/-- Writing a byte keeps the canonical form. -/
theorem memWrite_wf {m : Memory} (h : Memory.wf d m = true) (a : Nat) (v : Byte) : Memory.wf d (memWrite d m a v) = true := by
  simp only [Memory.wf, Bool.and_eq_true, List.all_eq_true] at h ⊢
  unfold memWrite
  split
  · exact ⟨rising_smErase m none a h.1, fun e he => h.2 e (mem_smErase he)⟩
  · rename_i hv
    refine ⟨rising_smSet m none a v (by simp) h.1, fun e he => ?_⟩
    rcases mem_smSet he with rfl | he
    · simpa using hv
    · exact h.2 e he

/-- A byte read after one was written. -/
theorem memRead_memWrite {m : Memory} (h : Memory.wf d m = true) (a : Nat) (v : Byte) (x : Nat) :
    memRead d (memWrite d m a v) x = if x = a then v else memRead d m x := by
  unfold memRead memWrite
  split
  · rename_i hv
    split
    · rename_i hx; subst hx; rw [smGet_smErase_self m none x (wf_rising h)]; simp [hv]
    · rename_i hx; rw [smGet_smErase_ne m a x hx]
  · split
    · rename_i hx; subst hx; simp
    · rename_i hx; rw [smGet_smSet_ne m a x v hx]

/-- Writing consecutive bytes keeps the canonical form. -/
theorem memWriteList_wf {m : Memory} (h : Memory.wf d m = true) (a : Nat) (bs : List Byte) :
    Memory.wf d (memWriteList d m a bs) = true := by
  induction bs generalizing m a with
  | nil => simpa [memWriteList] using h
  | cons b t ih => exact ih (memWrite_wf h a b) (a + 1)

/-- A byte read after consecutive bytes were written. -/
theorem memRead_memWriteList {m : Memory} (h : Memory.wf d m = true) (a : Nat) (bs : List Byte) (x : Nat) :
    memRead d (memWriteList d m a bs) x = if a ≤ x ∧ x < a + bs.length then bs.getD (x - a) 0 else memRead d m x := by
  induction bs generalizing m a with
  | nil => rw [if_neg (by simp only [List.length_nil]; omega)]; rfl
  | cons b t ih =>
    simp only [memWriteList]
    rw [ih (memWrite_wf h a b) (a + 1), memRead_memWrite h]
    by_cases hx : x = a
    · subst hx
      rw [if_neg (by omega), if_pos rfl, if_pos (by simp)]
      simp
    · by_cases hin : a + 1 ≤ x ∧ x < a + 1 + t.length
      · rw [if_pos hin, if_pos (by simp; omega)]
        obtain ⟨n, rfl⟩ : ∃ n, x = a + (n + 1) := ⟨x - a - 1, by omega⟩
        simp [show a + (n + 1) - (a + 1) = n by omega, show a + (n + 1) - a = n + 1 by omega]
      · rw [if_neg hin, if_neg hx, if_neg (by simp; omega)]

/-- Dropping cells keeps the canonical form. -/
theorem filter_wf {m : Memory} (h : Memory.wf d m = true) (p : Host.Cell → Bool) : Memory.wf d (m.filter p) = true := by
  simp only [Memory.wf, Bool.and_eq_true, List.all_eq_true] at h ⊢
  refine ⟨?_, fun e he => h.2 e (List.mem_filter.mp he).1⟩
  have key : ∀ (m : Memory) (b : Option Nat), rising b m = true → rising b (m.filter p) = true := by
    intro m
    induction m with
    | nil => intro b hb; simpa using hb
    | cons e t ih =>
      intro b hb
      obtain ⟨k, x⟩ := e
      have ht : rising (some k) t = true := by cases b <;> simp_all [rising]
      have hk : ∀ y, b = some y → y ≤ k := by intro y hy; subst hy; simp [rising] at hb; omega
      simp only [List.filter_cons]
      split
      · have := ih (some k) ht
        cases b <;> simp_all [rising]
      · exact ih b (rising_weaken t b k hk ht)
  exact key m none h.1

end Sys2Proof.Laws
end

