-- ==== Sys2Proof/Tests/Slice0.lean ====
section
/-! SUPPORT. Tests: what WellFormed refuses, a concrete state that meets the hypotheses of each statement (`wit_<statement>`, with the clauses of
a statement at the boundaries of their ranges), and effects of single commands whose results are worked out by hand or are examples of the spec. -/

open Sys2Proof Sys2Proof.Machine Sys2Proof.Claims

namespace Sys2Proof.Tests

set_option Elab.async false

/-! ## What WellFormed refuses -/

/-- A packet without payload from module 1 to module 0 on connection 5. -/
def packet : Packet where
  srcModule := 1
  dstModule := 0
  path := 0
  flags := 0
  conn := 5
  psn := 0
  a := 0
  b := 0
  ts := 0
  ce := false
  payload := []
  head := none
  poison := false

theorem test_wf_constants_and_rates : Instr.wf (.lih 0 1 0x10000) = false ∧ Instr.wf (.lih 0 1 0xFFFF) = true ∧
    Instr.wf (.rateChange 0 3) = false ∧ Instr.wf (.rateChange 0 4) = true := by decide
theorem test_wf_register_accesses : Instr.wf (.registerWrite 0 0x2000000 0xF 0) = false ∧ Instr.wf (.registerWrite 0 0x1FFFFFC 0xF 0) = true ∧
    Instr.wf (.registerWrite 1 0x10000 0xF 0) = false ∧ Instr.wf (.registerWrite 0 0x30006 0xF 0) = false ∧
    Instr.wf (.unmappedAccess 1 0x10000 false) = false ∧ Instr.wf (.unmappedAccess 0 0x10000 false) = true := by decide
theorem test_wf_descriptors_and_sources : Instr.wf (.descFetch 0 [0]) = false ∧ Instr.wf (.descFetch 0 (List.replicate 8 0)) = true ∧
    Instr.wf (.logRecord ⟨4, 7⟩) = false ∧ Instr.wf (.logRecord ⟨5, 12⟩) = false ∧ Instr.wf (.logRecord ⟨3, 7⟩) = true := by decide
theorem test_wf_lists_without_repeats : Instr.wf (.retrainComplete 0 0 [3, 3]) = false ∧ Instr.wf (.linkTrain 0 [1, 2, 1]) = false ∧
    Instr.wf (.linkTrain 0 [1, 2]) = true := by decide
theorem test_wf_payloads : Instr.wf (.data 0 { packet with payload := [0] }) = false ∧ Instr.wf (.submit 0 { packet with payload := List.replicate 8 0 }) = true ∧
    Packet.wf { packet with payload := List.replicate 516 0 } = false := by decide +kernel
theorem test_wf_mailbox_sizes : Instr.wf (.sessionOpen 0 0 0 [0]) = false ∧ Instr.wf (.ownerSet 0 0 0 0 true [0] []) = false ∧
    Instr.wf (.tamperSet 0 0 0 0 true 0 []) = false ∧ Instr.wf (.unknownMailboxCommand 0 0 0x16) = false ∧
    Instr.wf (.unknownMailboxCommand 0 0 0x17) = true := by decide
theorem test_wf_bundle_size : Instr.wf (.bundleWrite 0 0 0 0 true 0 (List.replicate 16365 0)) = false := by
  simp only [Instr.wf, List.length_replicate]; decide

/-- The table gives no row bits, so no word spells a command (log entry 1). -/
theorem test_no_word_spells_a_command : ∀ n w, decodeTableWord n w = none := by intro n w; rfl

/-! ## Cores -/

/-- A work item of ten instructions of context 0 in partition 0. -/
def item : WorkItem where
  workItem := 7
  context := 0
  partition := 0
  priority := 10
  preemptible := true
  progBase := 0
  progLen := 10
  entry := 2
  argAddr := 0
  bindCount := 0
  waitLimit := 0
  bindAddr := 0
  tag := 0
  argLen := 0
  seq := 0
  firstCore := 0
  coreCount := 1
  builderOf := none
  stepPhase := none
  movable := true
  eqFirst := 1
  eqCount := 1
  table := none
  fetchOrder := 0
  peer := none
  pages := []
  tails := []

/-- A complete buffer, an EMPTY one and a read-only one of 64 B each, and a poisoned one that an instruction reads. -/
def full : Buffer := { num := 1, base := 0x100, size := 64, readOnly := false, st := .complete, written := 0, set := 0 }
def void : Buffer := { full with num := 2, base := 0x200, st := .empty }
def fixed : Buffer := { full with num := 3, base := 0x300, readOnly := true }

/-- Core 0 at instruction 3 of the work item: s1 = 5, s2 = −2, s3 = 64, s4 = 4, s31 = 9. -/
def kit : Core := { Core.reset with
  item := some item, pc := 3, lastCtx := some 0, bufs := [full, void, fixed],
  regs := 0 :: 5 :: 0xFFFFFFFFFFFFFFFE :: 64 :: 4 :: (List.replicate 26 0 ++ [9]) }

/-- The state after reset with core 0 as given. -/
def on (k : Core) : State := State.reset.setCore 0 k
def S : State := on kit
/-- A state in service: every processor runs, the host may reach its registers. -/
def live (s : State) : State := { s with start := { s.start with phase := .service, perst := false } }
/-- The state that a command answers. -/
def get (o : Out) : State := match o with | .next s => s | _ => State.reset

theorem wit_ArithmeticResults : (S.core 0).dispatching = true := by decide
theorem wit_ConstantsAndCsrs : (S.core 0).dispatching = true ∧ (0xFFFF : BitVec 48).toNat < 2 ^ 16 ∧ 2 ^ 16 ≤ (0x10000 : BitVec 48).toNat ∧
    0x064 ≤ (0x064 : BitVec 12).toNat ∧ ((S.core 0).reg 2).toNat % 8 > 2 ∧ ((S.core 0).reg 4).toNat % 8 > 2 ∧ ((S.core 0).reg 3).toNat % 8 ≤ 2 := by decide
theorem wit_TransfersOfControl : (S.core 0).dispatching = true ∧ (S.core 0).item.isSome = true ∧ target S 0 6 = 9 ∧ target S 0 7 = 10 ∧
    target S 0 0xFFFFFC = -1 ∧ ((S.core 0).reg 1).toNat % 4 ≠ 0 := by decide
theorem wit_TransfersOfControl_inside : inProgram S 0 9 ∧ inProgram S 0 0 := ⟨⟨item, by decide, by decide, by decide⟩, ⟨item, by decide, by decide, by decide⟩⟩
theorem wit_TransfersOfControl_outside : ¬ inProgram S 0 10 ∧ ¬ inProgram S 0 (-1) := by
  have e : (S.core 0).item = some item := by decide
  constructor
  · rintro ⟨i, h, _, l⟩
    obtain rfl := Option.some.inj (e.symm.trans h)
    revert l; decide
  · rintro ⟨i, _, l, _⟩
    exact absurd l (by decide)
theorem wit_BufferAndPassRecordWords : S.memWf ∧ (S.core 0).dispatching = true ∧ (S.core 0).buffer 1 = some full ∧ (S.core 0).buffer 2 = some void ∧
    (S.core 0).buffer 3 = some fixed ∧ (S.core 0).buffer 9 = none ∧ (S.core 0).outstanding = [] ∧
    wordAt full ((S.core 0).reg 0) 60 + 4 ≤ full.base + full.size ∧ ¬ wordAt full ((S.core 0).reg 0) 64 + 4 ≤ full.base + full.size ∧
    ((S.core 0).reg 0).toNat + 0x1FF8 + 8 ≤ 0x2000 ∧ ((S.core 0).reg 1).toNat % 4 ≠ 0 := by unfold State.memWf; decide
theorem wit_GroupSettingsAreQueued : room S 0 (.g 0) ∧ readable (S.core 0) 1 full ∧ readable (S.core 0) 3 fixed ∧
    (S.core 0).buffer 2 = some void := by unfold room readable; decide
/-- A core whose group 0 has feed and drain settings and nothing queued. -/
def feed0 : FeedCfg := { act := ⟨1, 0x100, 0⟩, exps := ⟨1, 0x100, 0⟩, stride := 0 }
def drain0 : DrainCfg := { out := ⟨2, 0x200, 0⟩, stride := 4, bias := none }
def groupsOf (g : Group) : List Group := g :: List.replicate 7 Group.reset
def fed : State := on { kit with groups := groupsOf { Group.reset with feed := some feed0, drain := some drain0 } }
def pass0 : PassF := ⟨0, 0, 0, false, 0, 0, false, false, false, 4, 0, 4⟩
def tload0 : TloadF := ⟨0, 0, 0, 1, 0, 4, 255, 0⟩
def vec0 : VecF := { dBuf := 2, dReg := 0, aBuf := 1, aReg := 0, bBuf := 3, bReg := 0, lenReg := 4, type := 0, bs := false }
theorem wit_TilesPassesAndVectorsAreQueued : room fed 0 (.g 0) ∧ room fed 0 .vec ∧ readable (fed.core 0) 1 full ∧ readable (fed.core 0) 3 fixed ∧
    (fed.core 0).buffer 2 = some void ∧ 0 < ((fed.core 0).reg vec0.lenReg).toNat ∧ ((fed.core 0).reg vec0.lenReg).toNat < 2 ^ 20 ∧
    (fed.core 0).queues = [] ∧ ((fed.core 0).group 0).feed.isSome = true ∧ ((fed.core 0).group 0).drain.isSome = true := by unfold room readable; decide
def move0 : MoveF := { buf := 2, offReg := 0, addrReg := 0, lenReg := 4, sfmt := 0, dfmt := 0, sr := false, auxReg := 0, s8 := false, tclass := 1 }
theorem wit_OtherInstructionsAreQueued : room S 0 .mov ∧ room S 0 .nb ∧ room S 0 .syn ∧ room S 0 .col ∧ (S.core 0).item = some item ∧
    fmtListed 0 = true ∧ 0 < ((S.core 0).reg 4).toNat ∧ readable (S.core 0) 1 full ∧ semFails S 0 ((S.core 0).reg 4) = none := by
  unfold room readable; decide
/-- An NBFLUSH, waiting. -/
def flush (o : Nat) : Entry := { queue := .nb, pc := 0, ord := o, reads := [], writes := [], op := .nbflush 0 0 }
theorem wit_DispatchFailsOrStalls : (S.core 0).dispatching = true ∧ (S.core 0).buffer 9 = none ∧ (S.core 0).buffer 2 = some void ∧
    8 ≤ (((on { kit with queues := List.replicate 8 (flush 0) }).core 0).queues.filter (fun e => e.queue == .nb)).length ∧
    ((on { kit with queues := List.replicate 8 (flush 0) }).core 0).dispatching = true := by decide
theorem wit_FlagsSemaphoresAndPolls : (S.core 0).dispatching = true ∧ (S.core 0).item = some item ∧
    (let p := S.part 0; p.semFirst = 0 ∧ 4095 < p.semFirst + p.semCount ∧ p.cores.head? = some 0) ∧
    ((S.core 0).reg 4).toNat < 2 ^ 15 ∧ ¬ ((S.core 0).reg 2).toNat < 2 ^ 15 ∧ S.fencedTowers = [] ∧
    (0 : W32).toInt ≤ (S.sem 4).toInt ∧ (S.sem 4).toInt < (1 : W32).toInt := by decide +kernel
theorem wit_WaitsAndEnds : (S.core 0).item = some item ∧ (S.core 0).dispatching = true ∧ (S.core 0).inflight = [] ∧ (S.core 0).queues = [] ∧
    (S.core 0).coreMode ≠ 2 ∧ 3 ≤ (3 : BitVec 3).toNat ∧ ((on { kit with coreMode := 2 }).core 0).saved = none ∧
    (let k := (on { kit with wait := .waiting 0 1 0, mode := .wait, flags := 1, waitLimit := 1 }).core 0;
      k.flags &&& 1 ≠ 0 ∧ k.mode = .wait ∧ k.waitSince + k.waitLimit.toNat * 1000 ≤ 1000) := by decide
theorem wit_QueueHeadsIssue : quiet (kit) ∧ (let k := (on { kit with queues := [flush 0] }).core 0;
      (k.queues.filter (fun x => x.queue == .nb)).head? = some (flush 0) ∧ k.ready (flush 0) = true) ∧
    (let e : Entry := { flush 1 with queue := .vec, reads := [2], op := .vec ⟨.copy, 0, true, 0, 1, ⟨1, 0x100, 4⟩, some ⟨2, 0x200, 4⟩, none, 0⟩ };
      let w : Entry := { flush 0 with queue := .mov, writes := [2] };
      ({ kit with queues := [w, e] } : Core).ready e = false ∧ ({ kit with queues := [e] } : Core).ready e = true) := by unfold quiet; decide +kernel
/-- A tile load of array 15, and a pass without K-blocks and rows of one word. -/
def loadP : LoadP := { group := 0, first := 15, count := 1, src := ⟨1, 0x100, 0⟩, stride := 0, exps := none, wfmt := 0, outlier := none }
def loading : Core := { kit with inflight := [{ flush 0 with queue := .g 0, op := .tload loadP }],
                                 groups := groupsOf { Group.reset with loading := some loadP } }
def passP : PassP := { group := 0, shape := 0, wfmt := 0, s8 := false, afmt := 0, init := 0, keep := false, sound := false, outlier := false, m := 1,
                       kb := 0, n := 1, feed := none, drain := some { out := ⟨2, 0x200, 4⟩, stride := 1, bias := none }, ocfg := none, scfg := none,
                       cursor := 0, done := ArithCnt.zero }
theorem wit_TileLoadsAndPassesOfNoBlocks : (on loading).memWf ∧ quiet ((on loading).core 0) ∧ (((on loading).core 0).group 0).loading = some loadP ∧
    (((on loading).core 0).group 0).shadow.length = 16 ∧ loadP.first + 0 < 16 ∧ ((on loading).core 0).buffer loadP.src.buf = some full ∧
    (let s := on { kit with bufs := [void], inflight := [{ flush 0 with queue := .g 0, op := .pass passP [] }] };
      quiet (s.core 0) ∧ ((s.core 0).group 0).run = none ∧ passP.n ≤ 1 ∧ void.num = 2 ∧ void.set ≤ 0) := by unfold State.memWf quiet; decide
def vecP : VecP := ⟨.add, 0, false, 0, 1, ⟨2, 0x200, 4⟩, some ⟨1, 0x100, 4⟩, some ⟨3, 0x104, 4⟩, 0⟩
/-- 1.5 and 2.25 in core store at 0x100, and the FP32 sum of them in flight. -/
def adding : State := { on { kit with bufs := [void], inflight := [{ flush 0 with queue := .vec, writes := [2], op := .vec vecP }] } with
  coreStore := [(0x102, 0xC0), (0x103, 0x3F), (0x106, 0x10), (0x107, 0x40)] }
def copyP : MoveP := { op := .copy, store := ⟨2, 0x200, 2⟩, other := some ⟨1, 0x102, 2⟩, remote := 0, len := 2, sfmt := 0, dfmt := 0, sr := false, aux := 0,
                       s8 := false, background := false, cursor := 0 }
def copying : State := { on { kit with bufs := [void, full], inflight := [{ flush 0 with queue := .mov, reads := [1], writes := [2], op := .move copyP }] } with
  coreStore := adding.coreStore }
theorem wit_VectorResultsAndCopies : adding.memWf ∧ quiet (adding.core 0) ∧ (adding.core 0).bufs = [void] ∧ (adding.core 0).clash = [] ∧
    copying.memWf ∧ quiet (copying.core 0) ∧ (copying.core 0).bufs = [void, full] ∧ (copying.core 0).item = some item := by unfold State.memWf quiet; decide
/-- 1.5 + 2.25 = 3.75 = 0x40700000 (IEEE 754). -/
theorem test_vector_add : csF32 (get (exec (.vectorComplete 0) adding)) 0 0x200 = 0x40700000 := by decide +kernel
theorem test_copy_moves_bytes : (get (exec (.moveComplete 0 0 false) copying)).csRead 0 0x1FF 4 = [0, 0xC0, 0x3F, 0] := by decide +kernel
theorem test_add_wraps_and_s0_is_zero : ((get (exec (.add 0 5 1 2) S)).core 0).reg 5 = 3 ∧ ((get (exec (.addi 0 0 1 9) S)).core 0).regs = kit.regs := by decide +kernel
theorem test_shift_uses_six_bits : ((get (exec (.shl 0 5 1 3) S)).core 0).reg 5 = 5 := by decide +kernel
theorem test_branch_to_the_end_of_the_program : ((get (exec (.jmp 0 6) S)).core 0).pc = 9 ∧
    ((get (exec (.jmp 0 7) S)).core 0).wait = .faulted stPcRange 3 := by decide +kernel
theorem test_store_then_load : (let s := get (exec (.sts 0 2 1 0 4 false) S)
    s.csRead 0 0x104 5 = [0xFE, 0xFF, 0xFF, 0xFF, 0] ∧ ((get (exec (.lds 0 5 1 0 4 false) s)).core 0).reg 5 = 0xFFFFFFFFFFFFFFFE) := by decide +kernel
def queuedItem : Core := { kit with item := none, localQ := [item] }
def done0 : WorkOutcome := ⟨item, 0, 0, 0, false, 0, 0, 0, 0, 0⟩
/-- A core's work item as it is kept while another runs. -/
def kept : Saved := { item := item, pc := 5, regs := kit.regs, flags := 0, counters := kit.counters, queues := [], stalled := none, inflight := [], clash := [],
                      bufs := [], groups := [], counts := kit.arith, satMov := 0, infMov := 0, sndTaken := 0, sndSkipped := 0, poisonSeen := false,
                      passPoison := false, nbPoison := false, stalls := kit.stalls, waitLimit := 0, wait := .none, waitSince := 0, waitTick := 0, slot := 0 }
theorem wit_WorkItemsRunAndAreKept : (let s := on queuedItem;
      s.memWf ∧ plainItem (s.core 0) item ∧ (s.core 0).item = none ∧ (s.core 0).localQ = [item] ∧ (s.core 0).undef = [] ∧ (s.core 0).mode = .run) ∧
    (let k := (on { kit with wait := .faulted 1 2 }).core 0;
      k.item = some item ∧ k.wait = .faulted 1 2 ∧ ∀ e ∈ k.inflight, e.queue = .col) ∧
    (let s := on kit;
      quiet (s.core 0) ∧ item.preemptible = true ∧ (s.core 0).saved = none ∧ (s.core 0).groups = List.replicate 8 Group.reset) ∧
    (let k := (on { kit with item := none, saved := some kept }).core 0;
      k.saved = some kept ∧ kept.wait = .none ∧ k.mode = .run) := by unfold State.memWf plainItem quiet; decide
theorem test_work_item_starts : (let k := (get (exec (.workItemStart 0) (on queuedItem))).core 0;
    k.pc = 2 ∧ k.item = some item ∧ k.localQ = [] ∧ k.reg 1 = 0) := by decide +kernel
theorem wit_IdleCoresSleepAndWake : (let s := { on { kit with item := none, mode := .idle } with now := 100000 };
      s.pwr.retUs ≠ 0 ∧ (s.core 0).modeSince + s.pwr.retUs.toNat * 1000 ≤ s.now ∧ ¬ (s.core 0).modeSince + s.pwr.retUs.toNat * 1000 ≤ 99999 ∧ (s.core 0).localQ = []) ∧
    (let k := (on { kit with coreMode := 2, saved := some kept }).core 0;
      k.saved.isSome = true ∧ k.dispatching = true ∧ k.inflight = []) ∧
    (let s := { on { kit with item := none, mode := .retention } with now := 1000000000 };
      (s.core 0).modeSince + s.pwr.offMs.toNat * 1000000 ≤ s.now) ∧
    (let k := (on { kit with item := none, mode := .off, localQ := [item] }).core 0;
      k.mode = .off ∧ k.wait = .none ∧ k.localQ = [item]) ∧
    (let s := on { kit with onLoop := false };
      capCeiling s 0 ≤ supportedQ (s.stage (stageOf (towerOf 0))).setpoint) ∧ 4 ≤ (4 : Fin 17).val ∧ (3 : Fin 17).val < 4 ∧
    ({ kit with rateChanges := 1 } : Core).lastRate = none := by decide
theorem test_preempted_core_only_idles : ((get (exec (.wait 0 2 1 0) (on { kit with coreMode := 2, saved := some kept }))).core 0).mode = .idle ∧
    ((get (exec (.wait 0 2 1 0) (on { kit with coreMode := 2 }))).core 0).mode = .retention := by decide +kernel
def running0 : Run := { outAddr := 0x200, runPc := 1, start := [], passes := [], retries := 0, replay := [], retrying := false, syndromes := [], held := false }
def faulty (n : Nat) : Core := { kit with
  inflight := [{ flush 0 with queue := .g 0, op := .pass passP [] }], groups := groupsOf { Group.reset with run := some { running0 with retries := n } } }
theorem wit_ArrayFaultsAreRetried : (∀ n ∈ [0, 2], let k := (on (faulty n)).core 0;
      (k.group 0).run = some { running0 with retries := n } ∧ k.groups.length = 8 ∧ k.sampler.sample = none ∧ k.wait = .none ∧ k.paused = false) ∧
    ((on (faulty 0)).err.srcBuf (srcCore 0)).buf.length < 64 ∧ 1 ≤ (1 : BitVec 4).toNat ∧ (4 : BitVec 4).toNat ≤ 4 := by decide
def sampled : Sample := { group := 0, tag := 0, pass := passP, tiles := [], window := 0, select := 0, rows := 0, src := [], rowMap := [], ys := [], time := 0,
                          workItem := 7, context := 0, captured := true }
def sensing (l : Option Nat) : Core := { kit with sampler := { sample := some sampled, lastFault := l, fenced := false } }
def sndRec : SndRec := { tag := 0, core := 0, ctx := 0, flags := 0, rhoAct := 0, rhoTot := 0, hasRef := false, words := [] }
theorem wit_SamplersAndEmergencies : (let s := { S with thm := { S.thm with sensors := [(sensorKey (.core 0 0), { Sensor.reset with reading := 452 })] } };
      quiet (s.core 0) ∧ (s.core 0).groups = List.replicate 8 Group.reset ∧ 452 ≤ prot s (.core 0) ∧ preemptBound (s.core 0) ≤ allowanceOf s 0 100000000) ∧
    (let s := on { kit with emergency := true, groups := [] };
      (s.core 0).emergency = true ∧ (s.core 0).fastStopped = false ∧ predP s (.core 0) < 420) ∧
    ((on (sensing none)).core 0).sampler.sample = some sampled ∧ ((on (sensing (some 0))).core 0).sampler.lastFault = some 0 ∧ passP.scfg = none ∧
    (let s := live { S with sched := { S.sched with sounding := [sndRec] } };
      s.procUp 2 = true ∧ s.sched.sounding = [sndRec] ∧ towerOf sndRec.core = 0 ∧ s.ctx? 0 = none) := by unfold quiet; decide
theorem test_lih_refuses_reserved_bits : ((get (exec (.lih 0 5 0x10000) S)).core 0).wait = .faulted stIllegalInstr 3 ∧
    ((get (exec (.lih 0 1 0x1234) S)).core 0).reg 1 = 0x1234000000000005 := by decide +kernel
theorem test_semadd_crosses_to_semwait : (let s := S.setSem 4 2; ((get (exec (.semwait 0 4 1 true) s)).core 0).wait = .semwait 4 5 true ∧
    (get (exec (.semwait 0 4 1 true) (S.setSem 4 7))).sem 4 = 2) := by decide +kernel

/-! ## Slices, maps, bank units -/

/-- Core 0's slice as given. -/
def slice (k : Slice) : State := State.reset.setSlice 0 k
/-- Channel 0 of core 0's slice as given, the other channels after reset. -/
def chan0 (x : Chan) : State := slice { Slice.reset with chans := x :: List.replicate 3 Chan.reset }
def at0 : Coord := { ch := 0, half := 0, bank := 0, row := 0, blk := 0 }
def top : Coord := { ch := 3, half := 1, bank := 15, row := 4095, blk := 63 }

/-- R193's syndrome: the row-9 and column-3 bits alone mend data bit 147; 0x00480000 is uncorrectable; all ones mark poison. -/
theorem test_syndromes_of_R193 : decodeFull 0 (0x5A5AA5A5 ^^^ 0x00080200) = .dataBit 147 ∧ decodeFull 0 (0x5A5AA5A5 ^^^ 0x00480000) = .uncorrectable ∧
    decodeFull 0 (0x5A5AA5A5 ^^^ 0xFFFFFFFF) = .poisoned ∧ decodeFull 0 0x5A5AA5A5 = .clean := by decide +kernel
theorem wit_ChannelsReadAndWriteBlocks : State.reset.memWf ∧ (State.reset.slice 0).chans.length = 4 ∧ serves State.reset 0 top ∧
    State.reset.ptypeAt 0 top ≠ .activation ∧ State.reset.eddyAt 0 top = none ∧ State.reset.pages = [] ∧ (State.reset.unit 0 (unitOf top)).wrote = [] ∧
    (let s := chan0 { Chan.reset with retrain := some ⟨.drift, 0⟩ };
      s.chanHolds 0 0 = true ∧ (s.chan 0 0).lost = false ∧ (s.chan 0 0).heldQ.length < 256) ∧
    ((chan0 { Chan.reset with lost := true }).chan 0 0).lost = true := by unfold State.memWf serves; decide +kernel
theorem test_write_then_read : (let s := get (exec (.channelWrite 0 at0 5 0xFFFFFFFF false) State.reset)
    ((get (exec (.channelRead 0 at0) s)).chan 0 0).lastRead = some (at0, 5, false)) := by decide +kernel
def entry : EddyEntry := { blk := 0, data := 0, mask := 0xFF, stamp := 0 }
theorem wit_ChannelsFollowTimeAndHeat : (let s := { chan0 { Chan.reset with openSince := [(0, 0)] } with now := 64 };
      smGet (s.chan 0 0).openSince 0 = some 0 ∧ (s.slice 0).layers.length = 8 ∧ (s.slice 0).units = []) ∧
    (let s := { State.reset with thm := { Thm.reset with sensors := [(sensorKey (.layer 0 0), { Sensor.reset with reading := 400 })] } };
      ((s.slice 0).layer 0).band < bandOf (hotter (layerTP s 0 0).1 (layerTP s 0 0).2) ∧ (s.sensor (.layer 0 0)).st ≠ 2) ∧
    (let s := { State.reset with thm := { Thm.reset with sensors := [(sensorKey (.layer 0 0), { Sensor.reset with reading := 416 })] } };
      let heat (f : Int × Int → Int) : Int := (chanLayers 0).foldl (fun acc l => hotter acc (f (layerTP s 0 l))) (-1000);
      (s.chan 0 0).step < stepOf s.mem.t1.toNat (hotter (heat (·.1)) (heat (·.2)))) ∧ State.reset.mem.predict = true ∧
    (let s := { chan0 { Chan.reset with holdSince := some 0 } with now := 100000 };
      (s.chan 0 0).holdSince = some 0 ∧ 0 + s.mem.holdUs.toNat * 1000 ≤ s.now) := by decide +kernel
theorem wit_RetrainsHoldAndRelease : (let s := State.reset; hasRoom s (srcSlice 0) ∧ s.err.spans = [] ∧ (∀ d, (s.chan 0 d).retrain = none) ∧ (s.chan 0 0).spareCmd ≠ 0) ∧
    ([0, 0, 0].filter (fun t => decide (0 < t + 60000000000)) : List Nat).length = 3 ∧
    (let s := chan0 { Chan.reset with retrain := some ⟨.drift, 0⟩, spareCmd := 0 };
      (s.chan 0 0).retrain = some ⟨.drift, 0⟩ ∧ (s.chan 0 0).heldQ = [] ∧ s.mem.ctEnable = false ∧ (s.chan 0 0).spareCmd = 0 ∧
      (s.chan 0 0).sparesData.length = 12 ∧ 0 < (s.chan 0 0).sparesData.getD (287 / 24) 0 ∧ (287 : Fin 308).val < 288 ∧ 288 ≤ (288 : Fin 308).val) := by
  unfold hasRoom; decide +kernel
def rowUnit : RepairUnit := .row 0 0 0 5
def repairing : State := live (slice { Slice.reset with repairs := [{ unit := rowUnit, targets := [4096], moved := 0, poisoned := 0, complete := false, lastStep := 0 }] })
theorem wit_RowsAreRepaired : repairing.memWf ∧ (repairing.slice 0).chans.length = 4 ∧ hasRoom repairing srcMp ∧ repairing.err.spans = [] ∧ repairing.mpUp = true ∧
    (repairing.chan 0 0).lost = false ∧ repairing.chanHolds 0 0 = false ∧ repairing.pairHeld 0 (rowCoord 5 0) = false ∧
    ((repairing.slice 0).repairs.map (·.targets)) = [[4096]] ∧ ((live State.reset).slice 0).repairs = [] := by
  unfold State.memWf hasRoom; decide +kernel
theorem wit_RowsAreRepaired_clean : ∀ i : Fin 64, decodeFull (repairing.blkData 0 (rowCoord 5 i)) (repairing.blkCheck 0 (rowCoord 5 i)) = .clean := by
  decide +kernel
def region : Region where
  id := 1
  view := 0
  ptype := .weight
  readOnly := false
  part := 0
  ctx := 0
  restore := .host
  spillway := false
  slot4k := 0
  base := 0
  lines := 1
  firstCore := 0
  lastCore := 0
  source := 0
  recovering := true
  fenced := false
  lost := false
  todo := [0]
  restored := []
theorem wit_SlicesRestScrubAndLose : (let s := live ((slice Slice.reset).setCore 0 { Core.reset with mode := .off });
      (s.core 0).mode = .off ∧ s.procUp (2 + (towerOf 0).val) = true ∧ (∀ d, (s.chan 0 d).heldQ = [] ∧ (s.chan 0 d).eddy = [] ∧ (s.chan 0 d).retrain = none)) ∧
    (let s := live (slice { Slice.reset with selfRefresh := true });
      (s.slice 0).selfRefresh = true ∧ stopping s = false ∧ (∀ d, drifted s 0 d = false) ∧ ∀ l, ((s.slice 0).layer l).band < 3) ∧
    (let s := live { State.reset with regions := [region] };
      s.mpUp = true ∧ s.rangeHeld (region.lineAddr 0).1 region.view (region.lineAddr 0).2 4096 = false) ∧
    (State.reset.mem.scrubEn = true ∧ State.reset.chanHolds 0 (rowCoord 0 0).ch = false ∧ State.reset.mem.ctBusy = false) ∧
    (let s := live (chan0 { Chan.reset with untrainable := true });
      lossDue s 0 0 .untrainable = true ∧ (s.chan 0 0).lost = false ∧ (∀ d, d ≠ 0 → (s.chan 0 d).lost = false) ∧ hasRoom s srcMp) := by
  unfold hasRoom; decide +kernel
def change (t : Option TowerId) (l : List Nat) : EpochChange := { plainChange .repair with tower := t, changed := l }
theorem wit_MapEpochsAndFarPorts : (let s := live { State.reset with map := { MapSt.reset with queue := [change none []] } };
      s.map.change = none ∧ s.map.queue = [change none []] ∧ s.mpUp = true) ∧
    (let s := live { chan0 { Chan.reset with heldQ := [.read at0] } with map := { MapSt.reset with change := some (change (some 0) [0]) } };
      (s.chan (gchCore 0) (gchChan 0)).lost = false ∧ (s.chan (gchCore 0) (gchChan 0)).heldQ ≠ [] ∧ (change (some 0) [0]).migrated < s.setsAddr) ∧
    (let s := live { State.reset with mem := { MemRegs.reset with farEnA := true, farEnB := true } };
      s.far.length = 2 ∧ s.farEnabled 0 = true ∧ (s.farPort 0).st < 2 ∧ hasRoom s srcMp ∧ s.mpUp = true ∧ 2 ≤ (2 : Fin 5).val ∧ (1 : Fin 5).val < 2) ∧
    (let s := { live { State.reset with mem := { MemRegs.reset with farEnA := true, farPair := true }, far := [{ Far.reset with st := 3, width := 4 }, Far.reset] } with now := 100000000 };
      s.farUp 0 = true ∧ (s.farPort 0).polledAt + 100000000 ≤ s.now ∧ s.mem.farPair = true) ∧
    (let s := { live { State.reset with mem := { MemRegs.reset with farEnA := true }, far := [{ Far.reset with st := 4 }, Far.reset] } with now := 1000000000 };
      (s.farPort 0).st = 4 ∧ (s.farPort 0).attempts + 1000000000 ≤ s.now) := by unfold hasRoom; decide +kernel
/-- The example of R213: spread offset 0x1_2345_6000 lies in core 429 (T6.C45), CH2, bank 2, row 3,876, its halves on layers L4 and L5. -/
theorem test_spread_line_of_the_spec : State.reset.target 0 1 0x123456000 = some (.block 429 ⟨2, 0, 2, 3876, 0⟩) ∧
    State.reset.target 0 1 0x123456800 = some (.block 429 ⟨2, 1, 2, 3876, 0⟩) := by decide +kernel
/-- The example of local addresses: 0x06_4020 of unit 21 of core 337 is CH1, L2, bank 11, row 100, private byte 0x0193_C400. -/
theorem test_local_address_of_the_spec : localCoord 21 0x064020 = ⟨1, 0, 11, 100, 0⟩ ∧
    State.reset.blockView 337 (localCoord 21 0x064020) = some (0, 0x0193C400) ∧ State.reset.privCoord 337 0x0193C400 = some ⟨1, 0, 11, 100, 0⟩ := by decide +kernel
theorem wit_EddiesMergeNarrowWrites : State.reset.memWf ∧ serves State.reset 0 at0 ∧ State.reset.ptypeAt 0 at0 ≠ .activation ∧ State.reset.eddyAt 0 at0 = none ∧
    State.reset.pages = [] ∧ decodeFull (State.reset.blkData 0 at0) (State.reset.blkCheck 0 at0) = .clean ∧
    (let s := chan0 { Chan.reset with eddy := [entry] };
      s.eddyAt 0 at0 = some entry ∧ entry.mask ||| 0x7FFFFF00 ≠ 0xFFFFFFFF ∧ (s.chan 0 0).eddy.length < 16) ∧
    (let e := { entry with mask := 0xFFFFFFFF }; let s := { chan0 { Chan.reset with eddy := [e] } with now := 2000 };
      idxCoord e.blk = at0 ∧ e.blk = blkIndex 0 at0 ∧ e.stamp + 2000 ≤ s.now ∧ ¬ e.stamp + 2000 ≤ 1999) := by unfold State.memWf serves; decide +kernel
theorem test_atomic_add_in_the_eddy : (let s := get (exec (.atomicAdd 0 at0 1 false 7) State.reset)
    (s.chan 0 0).lastRead = some (at0, 0, false) ∧ s.dram = [] ∧ ((get (exec (.channelRead 0 at0) s)).chan 0 0).lastRead = some (at0, 0x700000000, false)) := by
  decide +kernel

/-- A private region of core 0, and a state with an argument block of one window and a program of END in it. -/
def reg0 : Region := { region with recovering := false, todo := [], lines := 65536, ptype := .state }
def launchP : LaunchP := { core := 0, tgt := 0, target := 0, st := ⟨1, 0x100, 512⟩, mask := 1, prog := 0x1000, arg := 0, classB := true, fixed := false,
                           background := false, ctx := 0, part := 0, workItem := 7 }
def launch0 : Launch := { id := 1, req := launchP, ord := 0, admitted := false, timingLogged := false, prog := [], args := [], windows := [], final := [] }
def asked (l : Launch) : State :=
  (({ State.reset with regions := [reg0] }).viewWrite 0 0 0 [1] false).modSlice 0 (fun k => { k with launches := [l] })
theorem wit_LaunchesStartAndComplete : (asked launch0).memWf ∧ ((asked launch0).slice 0).launches = [launch0] ∧
    (let r := readLaunch (asked launch0) 0 launchP; r.fails = none ∧ r.poison = false ∧ (r.s.slice 0).launches = [launch0] ∧ (r.s.unit 0 0).st = .idle) ∧
    maskUnits launchP.mask = [0] ∧ (asked launch0).rangeHeld 0 0 0 2496 = false ∧ (asked launch0).pwr.nearBank.getD 0 .on = .on ∧
    (readLaunch (asked launch0) 0 { launchP with arg := 8 }).fails = some stNbArgs := by unfold State.memWf; decide +kernel
/-- A finished launch of unit 0 whose status word is 5. -/
def finished : State := (asked { launch0 with admitted := true, final := [(0, 5)] }).setCore 0 { kit with
  bufs := [], inflight := [{ flush 0 with writes := [1], op := .nblaunch launchP }] }
theorem wit_LaunchesStartAndComplete_end : finished.memWf ∧ (finished.slice 0).launches = [{ launch0 with admitted := true, final := [(0, 5)] }] ∧
    quiet (finished.core 0) ∧ (finished.core 0).bufs = [] ∧ bits (5 : W64) 8 6 = 0 := by unfold State.memWf quiet; decide +kernel
theorem test_launch_admits_its_unit : ((get (exec (.launchAdmit 0) (asked launch0))).unit 0 0).st = .running := by decide +kernel
/-- Core 0's slice with unit 0 as given, its program one zero word. -/
def unit0 (x : BankUnit) : State := { slice { Slice.reset with units := [(0, x)] } with regions := [reg0] }
def runs : BankUnit := { BankUnit.reset with st := .running, prog := [0], x := 0 :: 3 :: 0xFFFFFFFF :: List.replicate 13 0 }
theorem wit_SegmentsBeginAndEnd : (let s := unit0 { runs with st := .waiting };
      s.chanHolds 0 0 = false ∧ (s.chan 0 0).owed < s.mem.refreshDefer.toNat ∧ turnWaits s 0 0 = false ∧ ceilingReached s 0 0 = false) ∧
    (let s := { unit0 { runs with segment := some 0 } with now := 1000000 };
      segOver s 0 0 = true ∧ (s.unit 0 0).segU = (0, none) ∧ (s.unit 0 0).segC = (0, none) ∧ (s.unit 0 0).segP = (0, none)) ∧
    (let s := { unit0 { runs with segment := some 0, fixed := true } with now := 768 }; 0 + 768 ≤ s.now ∧ (s.unit 0 0).st = .running) ∧
    (let s := slice { Slice.reset with units := [(0, { runs with segment := some 0 })], chans := { Chan.reset with owed := 8 } :: List.replicate 3 Chan.reset };
      (s.chan 0 0).owed = 8 ∧ hasRoom s (srcUnit 0) ∧ (s.unit 0 0).fixed = false) ∧
    (let s := slice { Slice.reset with units := [(0, { runs with classB := true, segment := some 0 })],
                                       layers := { Layer.reset with meter := 5120 } :: List.replicate 7 Layer.reset };
      classBBudget s 0 0 ≤ ((s.slice 0).layer 0).meter ∧ (0 : UnitId).val / 8 = (0 : LayerId).val ∧ (∀ v, v ≠ 0 → (s.unit 0 v).classB = false)) := by
  unfold hasRoom; decide +kernel
theorem wit_BankControlAndScalars : steps (unit0 runs) 0 0 ∧ ((unit0 runs).unit 0 0).r 1 = 3 ∧ ((unit0 runs).unit 0 0).r 0 = 0 ∧
    ((unit0 runs).unit 0 0).segment = none ∧ ((unit0 runs).unit 0 0).pendingLaunch = none ∧
    ((0 : W32).toNat + (511 : BitVec 10).toNat < 8192 ∧ 8192 ≤ (8191 : W32).toNat + (1 : BitVec 10).toNat) := by unfold steps; decide +kernel
theorem test_scalars_of_a_unit : ((get (exec (.nbAddi 0 0 5 1 0x3FFFF) (unit0 runs))).unit 0 0).r 5 = 2 ∧
    ((get (exec (.nbAddi 0 0 0 1 1) (unit0 runs))).unit 0 0).r 0 = 0 := by decide +kernel
def stream0 : StreamCfg := { kfmt := 2, vfmt := 2, rot := false, w := 32, prescale := 0, bad := false, accBase := 64 }
/-- Unit 0 in a segment with a window over its first row pair; x1 and x4 name one unit of work, x2 and x3 nothing. -/
def streams : BankUnit := { runs with segment := some 0, stream := some stream0, windows := [{ first := 0, last := 0, write := true, ptype := .state }],
                                      x := 0 :: 1 :: 0 :: 0 :: 8 :: List.replicate 11 0 }
theorem wit_BankStreamsAndScratch : (unit0 streams).memWf ∧ steps (unit0 streams) 0 0 ∧ rising none ((unit0 streams).unit 0 0).scratch = true ∧
    (((unit0 streams).unit 0 0).r 1).toNat = 1 ∧ (((unit0 streams).unit 0 0).r 4).toNat = 8 ∧ ((unit0 streams).unit 0 0).taintS = [] ∧
    rowScale 0 ≠ none ∧ (((unit0 streams).unit 0 0).window 0 true).isSome = true := by unfold State.memWf steps; decide +kernel
theorem wit_BankStreamsAndScratch_reads : reads (unit0 streams) 0 0 0 9 := by
  refine ⟨by decide +kernel, by decide, by decide, ?_⟩
  have h : ∀ i : Fin 9, decodeFull ((unit0 streams).blkData 0 (localCoord 0 (0 + 32 * i.val))) ((unit0 streams).blkCheck 0 (localCoord 0 (0 + 32 * i.val))) = .clean ∧
      ((unit0 streams).unit 0 0).window ((0 + 32 * i.val) / 4096) false = some { first := 0, last := 0, write := true, ptype := .state } := by decide +kernel
  intro i hi
  exact ⟨(h ⟨i, hi⟩).1, _, (h ⟨i, hi⟩).2, rfl⟩

/-! ## Rings, descriptors, pages, registers -/

/-- A context block of partition 0 with rings of 64 entries. -/
def blockWords : List W64 := [0x100000001, 0, 0, 0, 0x606] ++ List.replicate 27 0
def ctx0 : Ctx := newCtx 0 0 (ctxBlock blockWords) none 0
/-- A state in service whose physical function is attached. -/
def att (s : State) : State := live { s with fns := { Fn.reset true with st := .attached } :: List.replicate 15 (Fn.reset false) }
/-- Context 0 with one descriptor fetched. -/
def desc (ws : List W64) (n : Nat) : Desc := descOf ws n none
def holding (x : Ctx) (d : Desc) : State := att { State.reset with ctxs := [{ x with descs := [d], lastFetched := d.seq, nextSeq := d.seq + 1 }] }
/-- A cache of one layer and one head over the private region of core 0. -/
def kv0 : KvCfg := { kfmt := 2, vfmt := 2, kfloor := 0, vfloor := 0, extent := 1, kvHeads := 1, layers := 1, qPerKv := 1, ropeBase := 0x40000000,
                     ropeScale := 0x3F800000, ropePairs := 0, waitTimeout := 5, poolRegion := 1, tableRegion := 2, spillRegion := 3, lowWater := 0 }
def kvCtx : Ctx := newCtx 0 0 (ctxBlock blockWords) (some kv0) 0
def seq0 : Seq where
  ctx := 0
  seqId := 9
  part := 0
  st := .active
  priority := 3
  evictable := true
  ring := false
  tokens := 0
  firstPos := 0
  waitSince := 0
  waitLogged := false
  firstCore := 0
  coreCount := 1
  lastStep := 0
  ringId := 0
  member := 0
  members := 0
  narrowPages := 0
  landed := false
  passNo := 0
  endDesc := none
  narrowDesc := none
  withheld := none
  allocSince := none
  expired := false
  own := 0
def nopD : Desc := desc [0, 0, 0, 0, 0, 0, 0, 0] 1
def copyD : Desc := desc [0x03 * 2 ^ 56, 0, 0x1000000000000000, 64, 0, 0, 0, 0] 1
/-- SEQ descriptors of sequence 9: open on core 0 (1), end (2), set (3), narrow to K2 (4). -/
def seqD (op : Nat) : Desc := desc [BitVec.ofNat 64 (4 * 2 ^ 56), BitVec.ofNat 64 (op * 2 ^ 56 + 9), BitVec.ofNat 64 (2 ^ 45), BitVec.ofNat 64 (2 * 8 + 2), 0, 0, 0, 0] 1
def tableD (op : Nat) : Desc := desc [BitVec.ofNat 64 (6 * 2 ^ 56), BitVec.ofNat 64 (op * 2 ^ 56 + 4), 0, 0, 0, 0, 0, 0] 1
def table0 : Table := { id := 4, ctx := 0, st := .stable, committed := false, arg0 := 0, arg1 := 0, version := 0, builders := 0, failed := false, oldUsers := 0 }
/-- Whether a descriptor may start in a state that holds it. -/
def starts (s : State) (type : Nat) (d : Desc) : Bool := match startable s 0 d.seq type with | some y => y.2 == d | none => false
theorem wit_DescriptorsComplete : starts (holding ctx0 nopD) 0 nopD = true ∧ starts (holding ctx0 copyD) 3 copyD = true ∧
    (∀ op ∈ [1, 2, 3, 4], starts (holding kvCtx (seqD op)) 4 (seqD op) = true ∧ bits ((seqD op).words.getD 1 0) 56 8 = op) ∧
    starts (holding ctx0 (tableD 1)) 6 (tableD 1) = true ∧ leaderUp (holding ctx0 nopD) 0 = true ∧
    (let s := { holding kvCtx (seqD 2) with seqs := [seq0] }; s.seq? 0 9 = some seq0 ∧ leaderUp s seq0.firstCore = true ∧ s.seqPages 0 9 = []) ∧
    (0 < bits ((seqD 1).words.getD 2 0) 45 10 ∧ bits ((seqD 1).words.getD 2 0) 55 9 + bits ((seqD 1).words.getD 2 0) 45 10 ≤ 512) ∧
    isRowFmt (bits ((seqD 4).words.getD 3 0) 3 3) = true ∧ isRowFmt (bits ((seqD 4).words.getD 3 0) 0 3) = true ∧
    (let s := { holding ctx0 copyD with regions := [{ region with view := 1, ptype := .state, recovering := false, todo := [] }] };
      s.accessFails 0 0 1 0 64 true = none ∧ s.rangeHeld 0 1 0 64 = false ∧ (s.fn 0).attached = true) ∧
    ([table0].any (fun t => t.id == 4 && t.ctx == 0 && t.st == .stable)) = true := by decide +kernel
theorem wit_DescriptorsComplete_record : (let x := { ctx0 with descs := [nopD] }; x.desc? nopD.id = some nopD ∧ nopD.recsLeft = 1 ∧ nopD.quiet = false ∧
    x.errPending = false) := by decide +kernel
theorem test_nop_is_recorded : ((get (exec (.descNop 0 0) (holding ctx0 nopD))).ctxs.map (fun x => (x.recs.map (·.status), x.descs))) = [([stOk], [])] := by
  decide +kernel
/-- A WORK of one item at the start of spread view, and a STEP of the sequence whose number lies there. -/
def workD : Desc := desc [BitVec.ofNat 64 (1 * 2 ^ 56), 0x1000000000000000, BitVec.ofNat 64 (2 ^ 48 + 2 ^ 29), 0xFFFFFFFF, 0, 0, 0, 0] 1
def stepD : Desc := desc [BitVec.ofNat 64 (2 * 2 ^ 56), 0x1000000000000000, 1, 0x1000000000000000, 5, 0, 0, 0] 1
def spreadRegion : Region := { region with id := 2, view := 1, ptype := .state, recovering := false, todo := [] }
theorem wit_WorkAndStepsAreTaken : (let s := { holding ctx0 workD with regions := [spreadRegion] };
      starts s 1 workD = true ∧ spreadArea s 0 0x1000000000000000 64 false = some 0 ∧ s.rangeHeld 0 1 0 64 = false ∧ (s.viewRead 0 1 0 64).2.2 = false) ∧
    (let s := { holding ctx0 stepD with regions := [spreadRegion], seqs := [seq0] };
      starts s 2 stepD = true ∧ spreadArea s 0 0x1000000000000000 4 false = some 0 ∧ bits (stepD.words.getD 2 0) 0 16 = 1 ∧
      leaderUp s (lowCore s 0) = true ∧ (readPlan s 0 0x1000000000000000).2 = none) := by decide +kernel
def key0 : PageKey := { ctx := 0, seqId := 9, stream := 0, page := 0 }
def page0 : Page where
  key := key0
  st := .resident
  clean := true
  core := 0
  unit := 0
  row := 0
  count := 255
  pins := 0
  gen := 1
  kfmt := 2
  vfmt := 2
  slot := 0
  since := 0
  copied := false
  migrate := none
  narrow := none
  tailDue := true
def step0 : StepRun := { ctx := 0, seq := (1, none), stepNo := 5, batch := [(9, (1, none))], gone := [], toAlloc := [9], planAddr := 0, rows := [], layers := 1,
                         layer := 0, phase := 0, areaUsed := 0, openItems := [], failed := none, poison := false }
def cached (q : Seq) (ps : List Page) (rs : List StepRun) : State :=
  { att { State.reset with ctxs := [kvCtx], regions := [reg0, spreadRegion] } with seqs := [q], pages := ps, sched := { State.reset.sched with steps := rs } }
theorem wit_StepsAllocateAndPlan : (let s := cached seq0 [page0] [step0];
      s.sched.steps.find? (fun r => r.ctx == 0 && r.toAlloc.contains 9) = some step0 ∧ s.seq? 0 9 = some seq0 ∧ s.kvOf 0 = some (kv0, reg0) ∧
      leaderUp s 0 = true ∧ allocTurn s step0 seq0 = true ∧ needed s kv0 seq0 = [] ∧ (allocAll s kv0 reg0 seq0).2 = 0) ∧
    (let s := cached { seq0 with st := .pageWait, expired := true } [page0] []; s.seq? 0 9 = some { seq0 with st := .pageWait, expired := true }) ∧
    (let s := cached seq0 [page0] []; s.page? key0 = some page0 ∧ page0.tailDue = true ∧ s.tsUp page0.core = true ∧ page0.count < 256 ∧ page0.st ≠ .lost) ∧
    (let s := cached { seq0 with ring := true, members := 2 } [page0] [step0]; s.scheduled 0 9 = true ∧ ((s.seqPages 0 9).all (fun p => p.pins == 0)) = true) ∧
    (let r := { step0 with toAlloc := [] }; let s := cached seq0 [page0] [r];
      s.sched.steps.find? (fun r => r.ctx == 0 && r.stepNo == 5 && r.toAlloc.isEmpty && decide (r.layer < r.layers)) = some r ∧
      (readPlan s 0 r.planAddr).2 = none ∧ leaderUp s (lowCore s 0) = true) := by decide +kernel
theorem test_tail_counts_reach_256 : ((get (exec (.tailCountRaise key0) (cached seq0 [page0] []))).pages.map (·.count)) = [256] := by decide +kernel
/-- A page before its stream's tail, and a spill pool of one slot. -/
def tail1 : Page := { page0 with key := { key0 with page := 1 }, row := 64 }
def pool3 : Region := { region with id := 3, view := 2, ptype := .state, spillway := true, slot4k := 17, lines := 68, recovering := false, todo := [] }
def tiered (p : Page) : State := { cached seq0 [p, tail1] [] with regions := [reg0, spreadRegion, pool3] }
theorem wit_PagesMoveBetweenTiers : (∀ b ∈ [true, false], let p := { page0 with clean := b }; let s := tiered p;
      s.page? key0 = some p ∧ s.spillable p = true ∧ s.tsUp p.core = true ∧ s.spillPool 0 = some pool3 ∧ frameRows 2 2 ≤ pool3.slot4k) ∧
    (let p := { page0 with st := .spilling, copied := true, pins := 1 }; let s := { tiered p with now := 1000000 };
      s.page? key0 = some p ∧ p.since + 1000000 ≤ s.now ∧ 0 < p.pins) ∧
    (let p := { page0 with migrate := some (0, 1, 0, 1, 0) }; let s := tiered p;
      s.page? key0 = some p ∧ served s p = true ∧ localHeld s 0 0 = false ∧ localHeld s 0 1 = false ∧ p.gen = 1 ∧ unusable s p = none) ∧
    (let s := { tiered page0 with fencedTowers := [0] }; (unusable s page0).isSome = true ∧ served s page0 = true) ∧
    (let p := { page0 with st := .spilled }; let s := { tiered p with sched := { State.reset.sched with steps := [step0] } };
      s.page? key0 = some p ∧ s.scheduled 0 9 = true ∧ fillsFirst s p = false) := by decide +kernel
theorem test_pinned_spill_returns : (let p := { page0 with st := .spilling, copied := true, pins := 1 }
    ((get (exec (.spillPinTimeout key0) { tiered p with now := 1000000 })).pages.map (·.st)) = [.resident, .resident]) := by decide +kernel
def fence0 : FenceId := { kind := 3, index := 2, sub := 1 }
theorem wit_ActionRegistersAct : (let s := att { State.reset with ctxs := [ctx0], err := { Err.reset with fences := [fence0] } };
      reaches s 0 ∧ weirInvalid s (weirStaged s) = none ∧ s.sync.open_ = none ∧ (s.fn 0).st = .attached ∧ s.ctx? 0 = some ctx0 ∧
      s.err.fences.contains fence0 = true ∧ s.err.marks.contains fence0 = false ∧ fence0.kind < 7) ∧
    (let s := live { State.reset with procs := [Proc.reset, Proc.reset, { Proc.reset with st := .heldDown }] ++ List.replicate 9 Proc.reset };
      reaches s 0 ∧ (s.proc 2).st = .heldDown) ∧
    (let s := live { State.reset with mem := { MemRegs.reset with weirShadow := some { ceiling := 65, share := 0, protFloor := 0, bgShare := 0 } :: List.replicate 15 none } };
      reaches s 0 ∧ weirInvalid s (weirStaged s) = some (0, 3)) := by unfold reaches; decide +kernel
theorem wit_RegistersAndTheCodeTestWindow : (let s := att State.reset;
      reaches s 0 ∧ (s.fn 0).st = .attached ∧ s.ctxs = [] ∧ regAt 0 0x0002C = none ∧ (regAt 0 0x30004).isSome = true ∧ testRowFree s = true) ∧
    (5 ≤ bits (5 : W32) 0 8 ∧ bits (40 : W32) 0 8 ≤ 40 ∧ bits (4 : W32) 0 8 < 5 ∧ 40 < bits (41 : W32) 0 8) ∧
    (1 ≤ bits (1 : W32) 0 6 ∧ bits (32 : W32) 0 6 ≤ 32 ∧ bits (5 : W32) 0 6 ≠ State.reset.map.spread16m.toNat) ∧
    (let s := live { State.reset with mem := { MemRegs.reset with ctEnable := true } };
      reaches s 0 ∧ s.chanHolds (testBlock s).1 (testBlock s).2.ch = false ∧ s.mem.ctBusy = false) := by unfold reaches; decide +kernel
theorem test_register_ranges : (get (exec (.registerWrite 0 0x30004 0xF 40) (live State.reset))).mem.drift = 40 ∧
    (get (exec (.registerWrite 0 0x30004 0xF 41) (live State.reset))).mem.drift = 15 := by decide +kernel
theorem wit_AdminCommandsComplete : (let s := att State.reset; serves12 s 0 ∧ blockOk 0 blockWords = true ∧ blockWords.length = 32 ∧ (ctxBlock blockWords).kvAddr = 0 ∧
      s.parts.length = 16 ∧ partWorks s 3 = false ∧ mayName 0 5 = true ∧ mayName 1 5 = false) ∧
    (let s := att { State.reset with ctxs := [{ ctx0 with st := .parked, lastFetched := 0xFFFFFFFF }] };
      serves12 s 0 ∧ (ctxBlock blockWords).firstSeq = (0xFFFFFFFF : W32) + 1 ∧ ctxWorks s 0 = false) ∧
    (let ws : List W64 := [BitVec.ofNat 64 (2 ^ 60 + 2 ^ 58), BitVec.ofNat 64 (2 ^ 60), BitVec.ofNat 64 (2 ^ 32), 0];
      regionLegal ws = true ∧ regionFits (att State.reset) (regionOf ws) = true ∧ regionLegal [BitVec.ofNat 64 (2 ^ 60 + 2 ^ 58), BitVec.ofNat 64 (2 ^ 60), 0, 0] = false) := by
  unfold serves12; decide +kernel
theorem test_region_create_and_overlap : (let ws : List W64 := [BitVec.ofNat 64 (2 ^ 60 + 2 ^ 58), BitVec.ofNat 64 (2 ^ 60), BitVec.ofNat 64 (2 ^ 32), 0]
    let s := get (exec (.regionCreate 0 0 (.words ws)) (att State.reset))
    s.regions.length = 1 ∧ (get (exec (.regionCreate 0 1 (.words ws)) s)).regions.length = 1) := by decide +kernel
def rec0 : Rec := { seq := 0, status := stOk, type := 0, poison := false, held := false, last := true, irq := true, tag := 0, workItem := 0, index := 0, core := 0 }
theorem wit_RingsFetchAndComplete : (let s := att { State.reset with ctxs := [{ ctx0 with sqTail := 1 }] }; s.ringRuns 0 = true ∧ s.ctx? 0 = some { ctx0 with sqTail := 1 } ∧
      ctx0.load + (descCount (List.replicate 8 0)).getD 1 ≤ 4096 ∧ descCount (List.replicate 8 0) = some 1 ∧ (0 : W64).setWidth 32 = ctx0.nextSeq) ∧
    ((64 : W32) - ctx0.sqHead).toNat ≤ 2 ^ ctx0.sqLog2 ∧ ¬ ((65 : W32) - ctx0.sqHead).toNat ≤ 2 ^ ctx0.sqLog2 ∧
    (let x := { ctx0 with recs := [rec0], timerUs := 1 }; let s := att { State.reset with ctxs := [x] };
      s.ctx? 0 = some x ∧ (s.fn 0).attached = true ∧ (x.cqTail - x.cqHead).toNat < 2 ^ x.cqLog2 ∧
      ({ s.fn 0 with masked := 0 } : Fn).masked.getLsbD x.vector = false) ∧
    ({ ctx0 with unsignalled := 1, timerUs := 1 } : Ctx).firstUnsignalled + 1000 ≤ 1000 ∧ ({ Fn.reset true with pba := 1 } : Fn).pba.getLsbD 0 = true := by
  decide +kernel
def hello : List W64 := [0x464A484302000000, 0, 0, 0, 0x606, 0, 0]
theorem wit_HostsComeAndGo : (let s := live { State.reset with fns := { Fn.reset true with st := .ready } :: List.replicate 15 (Fn.reset false) };
      s.fns.length = 16 ∧ s.mpUp = true ∧ (s.fn 0).enabled = true ∧ helloOk 0 hello = true ∧ bits (hello.getD 0 0) 24 8 = 2 ∧ s.ctxsOf 0 = [] ∧
      helloOk 0 [0x464A484302000009, 0, 0, 0, 0x606, 0, 0] = false ∧ helloOk 0 [0x464A48430200000A, 0, 0, 0, 0x606, 0, 0] = true) ∧
    (let s := { att State.reset with now := 100000000 };
      (s.fn 0).st = .attached ∧ (s.fn 0).beatAt + (s.fn 0).heartbeatMs.toNat * 1000000 ≤ s.now ∧ s.start.phase = .service ∧ s.err.safe = false) ∧
    (let s := live { State.reset with ctxs := [ctx0], fns := { Fn.reset true with st := .lost } :: List.replicate 15 (Fn.reset false) };
      s.ctx? 0 = some ctx0 ∧ (s.fn 0).isLost = true ∧ ctx0.net = false ∧ ctx0.st = .open_) := by decide +kernel
theorem test_hello_attaches : (let s := live { State.reset with fns := { Fn.reset true with st := .ready } :: List.replicate 15 (Fn.reset false) };
      ((get (exec (.ringHelloGo 0 (.words hello)) s)).fn 0).st = .attached) := by decide +kernel
/-- The weir example of chapter 19: three staged writes and a commit. -/
theorem test_weir_example_of_the_spec : (let put (s : State) (o : Nat) (v : W32) : State := get (exec (.registerWrite 0 o 0xF v) s)
    let s := put (put (put (live State.reset) 0x20000 0x80A04000) 0x20004 0x40400000) 0x20008 0x20100020
    s.mem.weir = weirReset ∧ (get (exec (.weirCommitGo 0) s)).mem.weir.take 4 = [⟨64, 40, 8, 0⟩, ⟨32, 16, 0, 0⟩, ⟨16, 4, 0, 2⟩, ⟨0, 0, 0, 0⟩]) := by
  decide +kernel
theorem test_unassigned_offsets_are_counted : (get (exec (.registerWrite 0 0x2C 0xF 1) (live State.reset))).err.unmapped = 1 := by decide +kernel

/-! ## Links, ports, collectives, schedulers, firmware, power -/

/-- Link 0 as given. -/
def linked (l : Link) : State := live { State.reset with links := l :: List.replicate 13 Link.reset }
def flit0 : Flit := { dest := Fin.ofNat 10 (receiver 0 false), tclass := 0, seqNo := 0, ackSeq := 0, credits := 3, trans := 0 }
theorem wit_LinksCarryFlits : inOrder (linked { Link.reset with st := 1 }) 0 false flit0 ∧ flit0.dest.val = receiver 0 false ∧
    (let s := live State.reset; (0 : LinkId).val < s.links.length ∧ (s.link 0).st = 0 ∧ (s.link 0).width = 0 ∧
      (s.clk (Fin.ofNat 10 (linkEnds 0).1)).locked = true ∧ (s.clk (Fin.ofNat 10 (linkEnds 0).2)).locked = true) ∧
    (let s := { linked { Link.reset with st := 1 } with now := 1000000 }; (s.link 0).windowAt + 1000000 ≤ s.now ∧ ¬ (s.link 0).windowAt + 1000000 ≤ 999999 ∧
      (s.link 0).fwd.replays ≤ s.err.linkThresh.toNat ∧ (s.link 0).diagnose = false) ∧
    namedLane [(5, 16)] = some 5 ∧
    (∀ b ∈ [true, false], let k := (linked { Link.reset with st := 2, named := some 5, quiesceReq := true, spareA := b }).link 0;
      k.named = some 5 ∧ k.quiesceReq = true ∧ k.fwd.recvSeq = k.fwd.sendSeq ∧ k.rev.recvSeq = k.rev.sendSeq ∧ k.width = 0 ∧ (5 : Fin 66).val < 32) := by
  unfold inOrder; decide +kernel
/-- From die 1 to die 2 there is one minimal next link, whatever the route set (a free value) chooses among equals. -/
theorem wit_LinksCarryFlits_forward : inOrder (linked { Link.reset with st := 1 }) 0 false { flit0 with dest := 2 } ∧ receiver 0 false = 1 ∧
    nextLink (linked { Link.reset with st := 1 }) 1 2 = some 1 := by
  refine ⟨by unfold inOrder; decide +kernel, by decide, ?_⟩
  have h : hops (routeSet (linked { Link.reset with st := 1 })) 2 1 = some 1 := by decide +kernel
  have ok : (routeSet (linked { Link.reset with st := 1 })).filter
      (fun l => touches l 1 && hops (routeSet (linked { Link.reset with st := 1 })) 2 (farEnd l 1) == some 0) = [1] := by decide +kernel
  simp only [nextLink, h, ok, List.length_singleton, Nat.max_self, Nat.mod_one, List.getElem?_cons_zero]
theorem test_oxbow_leaves_out_a_failed_lane : ((get (exec (.linkTrain 0 [7]) (live State.reset))).link 0).oxA = 7 ∧
    ((get (exec (.linkTrain 0 [7]) (live State.reset))).link 0).width = ((get (exec (.linkTrain 0 []) (live State.reset))).link 0).width := by decide +kernel
def clocked (d : Nat) (t now : Nat) : State :=
  { live State.reset with clks := (List.replicate 10 { locked := true, unlockedAt := none }).set d { locked := false, unlockedAt := some t }, now := now }
theorem wit_ClocksRoundsAndTowerFences : ((live State.reset).clk 3).locked = true ∧ unlockedLong (clocked 3 0 1000000) 3 = false ∧
    (let s := clocked 3 0 1000001; unlockedLong s 3 = true ∧ allDies.all (fun x => !(s.clk x).locked) = false ∧ s.fencedTowers = [] ∧ fenceDue s 3 .lockLoss = true ∧
      s.mpUp = true ∧ s.cores = [] ∧ s.net.colls = []) ∧ unlockedLong (clocked 8 0 1000001) 8 = true ∧
    (let s := { clocked 3 0 1000001 with fencedTowers := [2] }; fenceDue s 3 .lockLoss = true ∧ s.fencedTowers ≠ [] ∧ s.fencedTowers.contains 3 = false) ∧
    (let s := { live State.reset with now := 100000000 }; s.sync.open_ = none ∧ s.sync.lastAt + s.sync.periodMs.toNat * 1000000 ≤ s.now) ∧
    (let s := { live State.reset with sync := { State.reset.sync with open_ := some (5, 0) } }; s.sync.open_ = some (5, 0) ∧ hasRoom s srcMp) := by
  unfold hasRoom; decide +kernel
/-- A module on the fabric as module 0, port 0 as given. -/
def wired (x : Port) : State :=
  live { State.reset with net := { Net.reset with regs := { NetRegs.reset with valid := true, addr := [1, 0, 0, 0] }, ports := x :: List.replicate 31 Port.reset } }
def up0 : Port := { Port.reset with st := 2, spraying := true }
theorem wit_PortsTrainJoinAndSecure : (let s := wired Port.reset; s.serving = true ∧ s.portOn 0 = true ∧ s.portNp 0 = true ∧ s.net.regs.laneA = 2 ∧ (s.port 0).fails400 < 3) ∧
    portUp14 (wired up0) 0 ∧ (wired up0).onFabric = true ∧ (wired up0).needsSec 0 = false ∧ (wired up0).net.regs.ipv6 = false ∧
    (let s := wired { up0 with ckn := some 1, secure := false }; let t := { s with net := { s.net with regs := { s.net.regs with macsec := 1 } } };
      t.needsSec 0 = true ∧ (t.port 0).ckn.isSome = true) ∧
    ((wired { Port.reset with st := 1, announced := false }).port 0).st = 1 ∧ ((wired { up0 with secure := true }).port 0).secure = true := by
  unfold portUp14; decide +kernel
def conn0 : Conn where
  num := 5
  peerConn := 6
  peer := 1
  part := 0
  st := 2
  attempts := 0
  nextAttempt := 0
  nextPsn := 1
  recvPsn := 0
  recvAhead := []
  unacked := 0
  oldestUnacked := 0
  outstanding := []
  ceSeen := 0
  ceAcked := 0
  acked := 0
  echo := false
  window := 4096
  srttUs := 10
  lastUse := 0
  lastRound := 0
  roundCe := 0
  mask := [1, 0, 0, 0]
  lastTs := 0
  waiting := []
def sent0 : Sent := { psn := 0, port := 0, stamp := 0, bytes := 64, resent := 0, later := 0 }
def joined (c : Conn) : State := { wired up0 with net := { (wired up0).net with conns := [c] } }
theorem wit_ConnectionsCarryPackets : (let s := joined conn0; arrives s 0 packet ∧ onlyConn s packet conn0 ∧ packet.psn = conn0.recvPsn ∧ conn0.unacked < 7 ∧
      (conn0.mask.getD 0 0).getLsbD 0 = true ∧ conn0.part.val = bits packet.a 0 4 ∧ s.serving = true) ∧
    seenPsn { conn0 with recvPsn := 1 } 0 = true ∧ ackHas { packet with a := 1 } 0 = true ∧
    (let s := { joined { conn0 with outstanding := [sent0] } with now := 24000000 };
      sent0.stamp + Nat.max s.net.regs.rtoMin.toNat (2 * conn0.srttUs) * 1000 ≤ s.now ∧ conn0.lastRound + conn0.srttUs * 1000 ≤ s.now ∧
      10 ≤ s.net.regs.targetUs.toNat ∧ Nat.max 0 sent0.stamp + 64000 ≤ s.now) ∧
    (let s := joined { conn0 with st := 1 }; openingPort s = some 0 ∧ conn0.attempts < 8) ∧
    (let s := { joined conn0 with now := 10000000000 }; conn0.lastUse + 10000000000 ≤ s.now) := by unfold arrives onlyConn portUp14; decide +kernel
theorem wit_ConnectionsCarryPackets_submit : (let x := { ctx0 with net := true }; let s := { joined conn0 with ctxs := [x] };
    s.ctx? 0 = some x ∧ x.st = .open_ ∧ (List.replicate 8 (0 : W64)).length = 8 ∧ (0 : W32) = x.streamSeq 5 ∧ descCount (List.replicate 8 0) = some 1 ∧ x.load + 1 ≤ 4096) := by
  decide +kernel
def coll0 : Coll where
  comm := 7
  seq := 1
  core := 0
  ord := 0
  fetched := 0
  ctx := 0
  part := 0
  op := 2
  dtype := 0
  redop := 0
  members := [0, 1]
  rank := 0
  isLocal := true
  send := 0
  recv := 0
  count := 1
  chunks := []
  timeoutUs := 1000
  deadlines := [(1, 0)]
  paceUsed := 0
  landed := []
  terms := []
  bad := []
  exchanged := true
  status := none
  poison := false
  desc := ⟨1, 0x100, 256⟩
def collecting (x : Coll) : State :=
  { joined conn0 with net := { (joined conn0).net with colls := [x] } }.setCore 0 { kit with bufs := [], inflight := [{ flush 0 with queue := .col, op := .coll ⟨1, 0x100, 256⟩ }] }
theorem wit_CollectivesRunAndEnd : (let x := { coll0 with status := some (stOk, 0) }; let s := collecting x;
      s.memWf ∧ s.net.colls = [x] ∧ (s.core 0).item = some item ∧ item.fetchOrder = x.fetched ∧ quiet (s.core 0) ∧ (s.core 0).bufs = [] ∧ x.desc.addr + 256 ≤ coreStoreSize) ∧
    (let s := collecting coll0; s.net.colls = [coll0] ∧ coll0.deadlines = [(1, s.now)] ∧ coll0.got 1 < coll0.expected 1) ∧
    (let x := { coll0 with isLocal := false }; let pk := { packet with b := 7, a := BitVec.ofNat 64 (2 ^ 32) }; let s := collecting x;
      arrives s 0 pk ∧ onlyConn s pk conn0 ∧ x.comm = pk.b ∧ x.seq = BitVec.ofNat 32 (bits pk.a 32 32) ∧ x.members = [0, conn0.peer.toNat] ∧ conn0.peer ≠ 0 ∧
      x.paceUsed + bits pk.a 0 16 ≤ s.net.regs.paceMaxMs.toNat * 1000 ∧ bits pk.a 0 8 = 0) := by
  unfold State.memWf quiet arrives onlyConn portUp14; decide +kernel
theorem wit_CollectivesRunAndEnd_pace : (let s := { live (chan0 { Chan.reset with holdSince := some 0 }) with net := { Net.reset with colls := [{ coll0 with isLocal := false, members := [0] }] } };
    s.serving = true ∧ s.mpUp = true ∧ s.procUp 10 = true ∧ s.net.pacing = [] ∧ paceCause s 0 .thermalHold = true) := by decide +kernel
def waiting0 : State := live { State.reset with parts := [{ cores := [0, 1], semFirst := 0, semCount := 4096 }], sched := { State.reset.sched with waiting := [{ item with coreCount := 2 }] } }
theorem wit_SchedulersPlaceWork : (waiting0.procUp 2 = true ∧ fewest waiting0 (eligible waiting0 { item with coreCount := 2 }) = some 0 ∧ (waiting0.core 0).localQ.length < 16) ∧
    (let j := { item with priority := 42 }; let s := live (on { kit with localQ := [j] });
      (s.core 0).item = some item ∧ item.priority.toNat + s.fw.preemptDelta.toNat ≤ j.priority.toNat ∧ ¬ item.priority.toNat + s.fw.preemptDelta.toNat ≤ 41 ∧
      (s.core 0).groups.any groupRetrying = false ∧ s.procUp (2 + (towerOf 0).val) = true) ∧
    (let s := { live (on { kit with localQ := [item], hot := true }) with parts := waiting0.parts };
      item.movable = true ∧ s.fw.rotateEn = true ∧ s.takesWork 1 = true ∧ (s.part 0).cores.contains 1 = true ∧ (s.core 1).localQ.length < 16) ∧
    ((on { kit with fenced := true, localQ := [item] }).core 0).fenced = true := by decide +kernel
theorem wit_ProcessorsRestart : (let s := live State.reset; s.procs.length = 12 ∧ s.start.phase = .service ∧ (s.proc 2).st = .running ∧ (s.proc 2).dumps.length = 2 ∧
      (recentRestarts s 2).length < 2 ∧ (s.proc 2).total ≠ 0xFFFF ∧ s.err.safe = false) ∧
    (let s := live { State.reset with procs := [{ Proc.reset with restartTimes := [0, 0] }, Proc.reset, { Proc.reset with restartTimes := [0, 0] }] ++ List.replicate 9 Proc.reset };
      2 ≤ (recentRestarts s 2).length ∧ 2 ≤ (recentRestarts s 0).length ∧ s.procs.length = 12) ∧
    (let s := live { State.reset with procs := [Proc.reset, Proc.reset, { Proc.reset with st := .restarting, dumps := [{ Dump.reset with island := some 1 }, Dump.reset] }] ++ List.replicate 9 Proc.reset };
      (s.proc 2).st = .restarting ∧ (s.proc 1).st = .running ∧ s.procs.all (fun y => y.writes.isEmpty) = true ∧ s.sec.regs.length = 16 ∧
      ((s.proc 2).dumps.getD 0 Dump.reset).island.isSome = true) := by decide +kernel
theorem test_third_restart_holds_down : (let s := live { State.reset with procs := [Proc.reset, Proc.reset, { Proc.reset with restartTimes := [0, 0] }] ++ List.replicate 9 Proc.reset };
    ((get (exec (.watchdogExpire 2 .watchdog) s)).proc 2).st = .heldDown) := by decide +kernel
theorem wit_RailsAndPowerFollow : (let s := live { State.reset with pwr := { Pwr.reset with stages := List.replicate 11 { Stage.reset with setpoint := 670 } } };
      s.mpUp = true ∧ (s.stage 0).on = true ∧ (s.stage 0).held = false ∧ (s.stage 0).setpoint < 730 ∧ (s.stage 0).pending = none ∧ s.pwr.stages.length = 11) ∧
    (let s := { live { State.reset with pwr := { Pwr.reset with stages := List.replicate 11 { Stage.reset with setpoint := 670, pending := some 730, fails := 2 } } } with now := 1000000 };
      (s.stage 0).pending = some 730 ∧ (s.stage 0).since + 1000000 ≤ s.now ∧ 2 ≤ (s.stage 0).fails ∧ s.fencedTowers = []) ∧
    (let s := live State.reset; 4 ≤ s.pwr.qMax ∧ s.pwr.qMax ≤ 16 ∧ s.start.phase ≠ .off ∧ (s.stage 10).on = true ∧ (s.stage 8).on = true) ∧
    (let s := live (on { kit with mode := .off, item := none }); (s.core 0).mode = .off ∧ s.pwr.powerUp = [] ∧ s.pwr.failed = []) := by decide +kernel
theorem wit_SupplyAndResetStartTheModule : turnOnMv ≤ 48000 ∧ 48000 ≤ overMv ∧ (30000 : Nat) < turnOffMv ∧ overMv < 70000 ∧ turnOnMv ≤ 59999 ∧
    State.reset.start.phase = .standby ∧ State.reset.start.perst = true ∧ (live State.reset).start.perst = false ∧ (live State.reset).start.phase = .service := by
  have a : Config.threshold 0 % 1001 < 1001 := Nat.mod_lt _ (by decide)
  have b : Config.threshold 1 % 1001 < 1001 := Nat.mod_lt _ (by decide)
  have c : Config.threshold 2 % 2001 < 2001 := Nat.mod_lt _ (by decide)
  refine ⟨?_, ?_, ?_, ?_, ?_, by decide, by decide, by decide, by decide⟩ <;> (simp only [turnOnMv, turnOffMv, overMv]; omega)
theorem test_perst_release_starts : (get (exec .perstDeassert State.reset)).start.phase = .starting := by decide +kernel
def usableSlot : SlotCheck := { sigOk := true, validated := true, rollback := 0, version := 0 }
theorem wit_HeadwaterBootsAUsableSlot : (let s := get (exec .perstDeassert State.reset);
      s.start.phase = .starting ∧ s.start.perst = false ∧ (s.proc 1).st ≠ .heldDown ∧ s.start.latches = 0 ∧ s.procs.length = 12 ∧ s.fns.length = 16) ∧
    slotVer State.reset { usableSlot with sigOk := false } = 2 ∧
    (let s := { State.reset with start := { Start.reset with phase := .booted, perst := false }, links := List.replicate 14 { Link.reset with st := 1 } };
      s.sec.erasing = none ∧ s.clks.all (fun k => k.locked) = true ∧ s.links.all (fun k => k.st != 0) = true ∧ flowShort s = false) := by decide +kernel
theorem wit_HeadwaterBootsAUsableSlot_usable : slotVer State.reset usableSlot = 1 := by
  simp only [slotVer, usableSlot]; simp; decide
theorem wit_TamperZeroisesAndErases : (let s := live State.reset; s.start.phase ≠ .off ∧ physical .mesh = true ∧ physical .voltage = false ∧ s.start.armed = true ∧
      s.sec.enabled &&& BitVec.ofNat 6 (2 ^ tamperBit .mesh) ≠ 0) ∧ ({ Sec.reset with enabled := 0 }).enabled &&& BitVec.ofNat 6 (2 ^ tamperBit .mesh) = 0 ∧
    ({ Sec.reset with erasing := some 0, zeroised := true }).erasing = some 0 ∧ ({ Start.reset with phase := .off }).phase = .off := by decide +kernel
/-- A sensor's reading in a state in service. -/
def warm (x : SensorId) (v : Int) : State := live { State.reset with thm := { Thm.reset with sensors := [(sensorKey x, { Sensor.reset with reading := v })] } }
theorem wit_SensorsAndPredictionsAct : (sensorsOf (.core 0)).length = 2 ∧ (sensorsOf (.layer 0 0)).length = 1 ∧ spotOf (.layer 0 0) = .layer 0 0 ∧
    (-160 ≤ (-160 : Int) ∧ (600 : Int) ≤ 600 ∧ (601 : Int) > 600 ∧ (-161 : Int) < -160 ∧ (459 : Int) < 460 ∧ (460 : Int) ≤ 460) ∧
    (let s := { live (on kit) with now := 100000, thm := { Thm.reset with spots := [(spotKey (.core 0), { Spot.reset with pAt := some 100000, p := 440 })] } };
      freshP s (.core 0) = true ∧ (s.spot (.core 0)).p < 440 + 30 ∧ (s.spot (.core 0)).lastStep + 100000 ≤ s.now ∧ 4 < (s.core 0).q ∧
      440 - 4 * (s.thm.margin.toNat : Int) ≤ (s.spot (.core 0)).p) ∧
    (let s := { live State.reset with now := 10000001, thm := { Thm.reset with sensors := [(sensorKey (.core 0 0), { Sensor.reset with reading := 8 })], spots := [(spotKey (.core 0), { Spot.reset with disagree := some 0 })] } };
      (s.spot (.core 0)).disagree = some 0 ∧ 0 + 10000000 < s.now ∧ (s.spot (.core 0)).judged = false ∧ sensorsOf (.core 0) = [.core 0 0, .core 0 1] ∧
      modelNow s (.core 0) = none ∧ gap (s.sensor (.core 0 1)).reading (nearMean s (.core 0)) + 8 ≤ gap (s.sensor (.core 0 0)).reading (nearMean s (.core 0))) := by
  decide +kernel
theorem wit_StopsOfTowersAndOfKegor : (let s := warm (.core 0 0) 460; fastTrigger s (.core 0) = some 3 ∧ (s.tower 0).fastStop = false ∧ spotTower (.core 0) = some 0 ∧
      s.thm.towers.length = 8 ∧ s.net.colls = [] ∧ s.net.conns = [] ∧ 4 ≤ s.pwr.qMax) ∧ fastTrigger (warm (.core 0 0) 459) (.core 0) = none ∧
    (let s := live { State.reset with thm := { Thm.reset with outletOver := 2 } }; suddenTrip s = some 2) ∧
    (let s := live { State.reset with thm := { Thm.reset with flow := 449, flowHist := [(0, 1800)] } }; suddenTrip s = some 1 ∧ flowShort s = true ∧ s.mpUp = true) ∧
    (let s := live { State.reset with procs := { Proc.reset with st := .heldDown } :: List.replicate 11 Proc.reset }; safeDue s 3 = some false) := by decide +kernel
theorem wit_CoolantLimitsAndReports : (let s := warm (.io 0 0) 400; s.mpUp = true ∧ s.pwr.ioAt.getD 0 none = none ∧ s.pwr.ioLimit.getD 0 none = none ∧
      400 ≤ (ioSpots 0).foldl (fun acc h => hotter acc (predP s h)) (-1000)) ∧
    ((ioSpots 0).foldl (fun acc h => hotter acc (predP (warm (.io 0 0) 375) h)) (-1000) < 388) ∧
    (let s := { warm (.layer 0 0) 0 with now := 10000000000 }; s.thm.coolSt = 0 ∧ (3599 : Nat) < 100 * s.thm.flowLow.toNat ∧ ¬ (3600 : Nat) < 100 * s.thm.flowLow.toNat ∧
      s.thm.lastSummary + 10000000000 ≤ s.now ∧ hasRoom s srcMp ∧ s.thm.inlet ≤ 4000) ∧
    outsideNormal (live (on { kit with q := 15 })) = true := by unfold hasRoom; decide +kernel
def logged (sev : Nat) (src : Source) : LogRec where
  code := 1
  severity := sev
  nested := false
  preempts := false
  src := src
  ctx := none
  time := 0
  seq := 0
  index := 0
  parent := 0xFFFFFFFF
  status := 0
  repeats := 0
  location := 0
  detail := []
  under := none
theorem wit_RecordsReachLogAndMirror : (let s := live { State.reset with err := { Err.reset with sources := [{ src := srcMp, buf := [logged 1 srcMp], seq := 1, dropped := 0 }] } };
      s.memWf ∧ s.mpUp = true ∧ (s.err.srcBuf srcMp).buf = [logged 1 srcMp] ∧ (s.err.srcBuf srcMp).dropped = 0 ∧ s.err.entries.length < 1024) ∧
    (let s := live { State.reset with err := { Err.reset with entries := [logged 2 srcMp] }, fns := { Fn.reset true with st := .attached, logRing := 4096, logLog2 := 6 } :: List.replicate 15 (Fn.reset false) };
      mirrorOpen s = true ∧ s.fns.length = 16 ∧ s.err.irqSeverity.toNat ≤ 2 ∧ 1 < s.err.irqSeverity.toNat) ∧ lowestSeverity [logged 1 srcMp, logged 2 srcMp] = 1 := by
  unfold State.memWf; decide +kernel
def session0 : Session := { id := 3, counter := 0, sent := 0, lastAt := 0, key := 0, nonce := 0 }
/-- Mailbox 0 with a session and a quote. -/
def boxed : State := { live State.reset with sec := { Sec.reset with mbox := [{ Mbox.reset with session := some session0, quote := some (0, 0, 0, []) }, Mbox.reset] } }
theorem wit_MailboxAnswersAndSessions : asks boxed 0 ∧ (boxed.mbox 0).session = some session0 ∧ (boxed.mbox 0).quote = some (0, 0, 0, []) ∧ boxed.sec.identityLost = false ∧
    (2 : BitVec 8).toNat ≤ 2 ∧ 2 < (3 : BitVec 8).toNat ∧ hasRoom boxed srcSp ∧ canRestart boxed 1 = true ∧ (recentRestarts boxed 1).length < 2 ∧
    (boxed.mbox 1).session = none ∧ session0.lastAt + 60000000000 ≤ 60000000000 ∧ (1 : W64) = session0.counter + 1 := by unfold asks hasRoom; decide +kernel
/-- The clauses on signatures and bundles depend on what the keys verify, which is free (log entry 2). -/
theorem wit_SessionCommandsAct : asks boxed 0 ∧ (boxed.mbox 0).session = some session0 ∧ boxed.sec.regs.length = 16 ∧ boxed.net.ports.length = 32 ∧
    boxed.sec.owner = none ∧ (8 : BitVec 8).toNat ≤ 11 ∧ ¬ 8 ≤ (7 : BitVec 8).toNat ∧ 11 < (12 : BitVec 8).toNat ∧ boxed.fw.archive[(0 : BitVec 16).toNat]? = none := by
  unfold asks; decide +kernel
theorem wit_StepRunsTheFrontCommand : ({ State.reset with pending := [.nop 0] } : State).pending = .nop 0 :: [] ∧ State.reset.pending = [] := by decide +kernel
theorem wit_MemoriesStayCanonical : Reachable State.reset ∧ stepsTo State.reset { State.reset with now := 1 } := ⟨Reachable.reset [], rfl⟩
theorem wit_SafeIsLeftOnlyByReset : ({ State.reset with err := { Err.reset with safe := true } } : State).err.safe = true ∧
    exec (.nop 0) { State.reset with err := { Err.reset with safe := true } } = .next { State.reset with err := { Err.reset with safe := true } } := ⟨rfl, rfl⟩

end Sys2Proof.Tests
end

/-! PROOFS. O3: transfers of control, and the alignment of LDS and STS (R106, Table 4.4). -/

namespace Sys2Proof.Proofs

open Sys2Proof.Machine Sys2Proof.Laws Sys2Proof.Claims

/-! ## The instructions' meanings -/

section
variable (s : State) (c : CoreId) (a b : BitVec 5) (off : BitVec 24)

theorem exec_beq : exec (.beq c a b off) s = branch c (fun x y => x == y) a b off s := rfl
theorem exec_bne : exec (.bne c a b off) s = branch c (fun x y => x != y) a b off s := rfl
theorem exec_blt : exec (.blt c a b off) s = branch c BitVec.slt a b off s := rfl
theorem exec_bge : exec (.bge c a b off) s = branch c (fun x y => !(x.slt y)) a b off s := rfl
theorem exec_bltu : exec (.bltu c a b off) s = branch c BitVec.ult a b off s := rfl
theorem exec_bgeu : exec (.bgeu c a b off) s = branch c (fun x y => !(x.ult y)) a b off s := rfl
theorem exec_jmp : exec (.jmp c off) s = execJmp c off s := rfl
theorem exec_call : exec (.call c off) s = execCall c off s := rfl
theorem exec_ret : exec (.ret c) s = execRet c s := rfl
theorem exec_lds (n : BitVec 8) (disp : BitVec 16) (wide : Bool) :
    exec (.lds c b n a disp wide) s = execLds c b n a disp wide s := rfl
theorem exec_sts (n : BitVec 8) (disp : BitVec 16) (wide : Bool) :
    exec (.sts c b n a disp wide) s = execSts c b n a disp wide s := rfl

end

/-! ## A core after a transfer -/

/-- What a transfer of a core to an index leaves: the target within the program, ST_PC_RANGE outside it (R106). -/
def TransfersTo (s : State) (c : CoreId) (t : Int) (st : State) : Prop :=
  (inProgram s c t → st = goesTo s c t.toNat) ∧
  (¬ inProgram s c t → (s.core c).item.isSome = true → st = faults s c stPcRange)

theorem jumpTo_of_inProgram {s : State} {c : CoreId} {t : Int} (ht : inProgram s c t) :
    (s.core c).jumpTo t = { s.core c with pc := t.toNat } := by
  obtain ⟨i, hi, hlo, hhi⟩ := ht
  simp [Core.jumpTo, hi, hlo, hhi]

theorem jumpTo_of_not_inProgram {s : State} {c : CoreId} {t : Int} (ht : ¬ inProgram s c t)
    (hitem : (s.core c).item.isSome = true) :
    (s.core c).jumpTo t = (s.core c).fault stPcRange (s.core c).pc := by
  obtain ⟨i, hi⟩ := Option.isSome_iff_exists.1 hitem
  have hout : ¬ (0 ≤ t ∧ t < i.progLen.toNat) := fun hin => ht ⟨i, hi, hin⟩
  simp only [Core.jumpTo, hi, if_neg hout]

section
variable {s : State} {c : CoreId} (h : (s.core c).dispatching = true)
include h

theorem settle_fault (status : BitVec 16) :
    settle c (s.setCore c ((s.core c).fault status (s.core c).pc)) = faults s c status :=
  dispatch_fault c s status h

theorem settle_goesTo (pc : Nat) : settle c (goesTo s c pc) = goesTo s c pc := by
  obtain ⟨-, hwait, hstall, -, -⟩ := (dispatching_iff _).1 h
  exact settle_idle s c _ hwait hstall

theorem settle_jumpTo (t : Int) : TransfersTo s c t (settle c (s.setCore c ((s.core c).jumpTo t))) := by
  refine ⟨fun ht => ?inside, fun ht hitem => ?outside⟩
  case inside => rw [jumpTo_of_inProgram ht]; exact settle_goesTo h t.toNat
  case outside => rw [jumpTo_of_not_inProgram ht hitem]; exact settle_fault h stPcRange

/-! ## Branches, jumps, calls and returns -/

/-- A branch transfers control when its condition holds and goes on to the next instruction otherwise. -/
theorem branch_transfers {i : Instr} {cond : W64 → W64 → Bool} {p : Prop} {a b : BitVec 5} {off : BitVec 24}
    (hi : exec i s = branch c cond a b off s) (hp : cond ((s.core c).reg a) ((s.core c).reg b) = true ↔ p) :
    ∃ st, exec i s = .next st ∧ (p → TransfersTo s c (target s c off) st) ∧
      (¬ p → st = goesTo s c ((s.core c).pc + 1)) := by
  refine ⟨_, hi.trans (dispatch_next c s _ h), fun ht => ?taken, fun hn => ?notTaken⟩
  case taken =>
    rw [if_pos (hp.2 ht)]
    exact settle_jumpTo h (target s c off)
  case notTaken =>
    rw [if_neg (mt hp.1 hn)]
    exact settle_goesTo h ((s.core c).pc + 1)

theorem execJmp_transfers (off : BitVec 24) :
    ∃ st, execJmp c off s = .next st ∧ TransfersTo s c (target s c off) st :=
  ⟨_, dispatch_next c s _ h, settle_jumpTo h (target s c off)⟩

theorem execCall_of_inProgram {off : BitVec 24} (ht : inProgram s c (target s c off)) :
    execCall c off s = .next (s.setCore c { s.core c with
      pc := (target s c off).toNat, regs := (s.core c).regs.set 31 (BitVec.ofNat 64 ((s.core c).pc + 1)) }) := by
  obtain ⟨-, hwait, hstall, -, -⟩ := (dispatching_iff _).1 h
  have hjump := jumpTo_of_inProgram ht
  unfold target at hjump
  rw [execCall, dispatch_next c s _ h]
  simp only [hjump, hwait]
  exact congrArg Host.Outcome.next (settle_idle s c _ rfl hstall)

theorem execCall_of_not_inProgram {off : BitVec 24} (ht : ¬ inProgram s c (target s c off)) :
    execCall c off s = .next (faults s c stPcRange) := by
  obtain ⟨hitem, hwait, -, -, -⟩ := (dispatching_iff _).1 h
  have hjump := jumpTo_of_not_inProgram ht hitem
  unfold target at hjump
  have hfault := fault_of_none (s.core c) stPcRange (s.core c).pc hwait
  rw [execCall, dispatch_next c s _ h]
  simp only [hjump, hfault]
  exact congrArg Host.Outcome.next (settle_faulted s c _ stPcRange _ rfl rfl)

theorem execRet_transfers : ∃ st, execRet c s = .next st ∧ TransfersTo s c ((s.core c).reg 31).toNat st :=
  ⟨_, dispatch_next c s _ h, settle_jumpTo h _⟩

end

/-! ## Alignment of LDS and STS -/

/-- Offset and displacement of an LDS or STS are multiples of the width (R106). -/
theorem wordAligned_iff (o disp : Nat) (wide : Bool) :
    wordAligned o disp wide = true ↔ o % (if wide then 8 else 4) = 0 ∧ disp % (if wide then 8 else 4) = 0 := by
  simp [wordAligned, wordBytes]

section
variable {s : State} {c : CoreId} (h : (s.core c).dispatching = true)
include h

theorem execLds_misaligned {off : BitVec 5} {disp : BitVec 16} {wide : Bool} (d : BitVec 5) (buf : BitVec 8)
    (hmis : wordAligned ((s.core c).reg off).toNat disp.toNat wide = false) :
    execLds c d buf off disp wide s = .next (faults s c stBufAlign) := by
  rw [execLds, dispatch_next c s _ h]
  simp only [hmis, Bool.not_false, if_true, settle_fault h]

theorem execSts_misaligned {off : BitVec 5} {disp : BitVec 16} {wide : Bool} (src : BitVec 5) (buf : BitVec 8)
    (hmis : wordAligned ((s.core c).reg off).toNat disp.toNat wide = false) :
    execSts c src buf off disp wide s = .next (faults s c stBufAlign) := by
  rw [execSts, dispatch_next c s _ h]
  simp only [hmis, Bool.not_false, if_true, settle_fault h]

end

/-- Settles O3: a case for each branch condition; a core that dispatches has a work item, so a target is in its program or fails;
LDS and STS check alignment before anything else. -/
theorem transfersOfControl : Obligations.TransfersOfControl := by
  unfold Obligations.TransfersOfControl
  intro s c a b off h k x y t next jumps taken
  have hitem := ((dispatching_iff _).1 h).1
  obtain ⟨sr, hret, hretIn, hretOut⟩ := execRet_transfers h
  refine ⟨?beq, ?bne, ?blt, ?bge, ?bltu, ?bgeu, ?jmp, ?callIn, ?callOut, ?retIn, ?retOut, ?words⟩
  case beq => exact branch_transfers h (exec_beq s c a b off) beq_iff_eq
  case bne => exact branch_transfers h (exec_bne s c a b off) bne_iff_ne
  case blt => exact branch_transfers h (exec_blt s c a b off) BitVec.slt_iff_toInt_lt
  case bge => exact branch_transfers h (exec_bge s c a b off) (by simp [BitVec.slt, x, y, k])
  case bltu => exact branch_transfers h (exec_bltu s c a b off) (by simp [BitVec.ult, x, y, k])
  case bgeu => exact branch_transfers h (exec_bgeu s c a b off) (by simp [BitVec.ult, x, y, k])
  case jmp =>
    obtain ⟨st, hst, hjump⟩ := execJmp_transfers h off
    exact ⟨st, (exec_jmp s c off).trans hst, fun _ => hjump, fun hn => absurd trivial hn⟩
  case callIn => exact fun ht => (exec_call s c off).trans (execCall_of_inProgram h ht)
  case callOut => exact fun ht => (exec_call s c off).trans (execCall_of_not_inProgram h ht)
  case retIn => exact fun ht => by rw [exec_ret, hret, hretIn ht, Int.toNat_natCast]
  case retOut => exact fun ht => by rw [exec_ret, hret, hretOut ht hitem]
  case words =>
    intro n disp wide w hmis
    have halign := Bool.eq_false_iff.2 (mt (wordAligned_iff _ _ wide).1 hmis)
    exact ⟨(exec_lds s c a b n disp wide).trans (execLds_misaligned h b n halign),
      (exec_sts s c a b n disp wide).trans (execSts_misaligned h b n halign)⟩

end Sys2Proof.Proofs

/-! PROOFS. O18: the check word of a block is its grid parity (R192). -/

namespace Sys2Proof.Proofs

open Sys2Proof.Machine

/-! ## Little-endian bytes (R6) -/

theorem leNat_natLe (n v : Nat) : leNat (natLe n v) = v % 256 ^ n := by
  induction n generalizing v with
  | zero => simp [natLe, leNat, Nat.mod_one]
  | succ n ih => rw [natLe, leNat, ih, BitVec.toNat_ofNat, Nat.pow_succ' (m := 256), Nat.mod_mul]

theorem drop_natLe (k n v : Nat) : (natLe (k + n) v).drop k = natLe n (v / 256 ^ k) := by
  induction k generalizing v with
  | zero => simp
  | succ k ih => rw [Nat.succ_add, natLe, List.drop_succ_cons, ih, Nat.div_div_eq_div_mul, Nat.pow_succ']

theorem take_natLe (k n v : Nat) : (natLe (k + n) v).take k = natLe k v := by
  induction k generalizing v with
  | zero => simp [natLe]
  | succ k ih => rw [Nat.succ_add, natLe, List.take_succ_cons, ih, natLe]

/-! ## The parity of a line of bits -/

/-- The XOR of the first n bits of a line. -/
def lineParity (n : Nat) (f : Nat → Bool) : Bool := (List.range n).foldl (fun p j => p ^^ f j) false

theorem lineParity_succ (n : Nat) (f : Nat → Bool) : lineParity (n + 1) f = (lineParity n f ^^ f n) := by
  simp [lineParity, List.range_succ]

theorem lineParity_congr {n : Nat} {f g : Nat → Bool} (h : ∀ j < n, f j = g j) : lineParity n f = lineParity n g :=
  List.foldl_rel (r := Eq) rfl fun j hj p q hpq => by rw [hpq, h j (List.mem_range.1 hj)]

theorem ones_succ (n x : Nat) : ones (n + 1) x = ones n x + (x.testBit n).toNat := by
  cases h : x.testBit n <;> simp [ones, List.range_succ, h]

/-- The number of set bits is odd exactly when their XOR is 1. -/
theorem decide_ones_odd (n x : Nat) : decide (ones n x % 2 = 1) = lineParity n x.testBit := by
  induction n with
  | zero => simp [ones, lineParity]
  | succ n ih =>
    rw [ones_succ, lineParity_succ, ← ih]
    cases x.testBit n with
    | false => rw [Bool.toNat_false, Nat.add_zero, Bool.xor_false]
    | true =>
      have hflip : (ones n x + 1) % 2 = 1 ↔ ¬ ones n x % 2 = 1 := by omega
      rw [Bool.toNat_true, Bool.xor_true, decide_eq_decide.2 hflip, decide_not]

/-- The XOR of numbers, bit by bit. -/
theorem testBit_foldl_xor (n j : Nat) (f : Nat → Nat) :
    ((List.range n).foldl (fun acc i => acc ^^^ f i) 0).testBit j = lineParity n (fun i => (f i).testBit j) := by
  rw [lineParity, ← Nat.zero_testBit j]
  exact (List.foldl_hom (fun a : Nat => a.testBit j) fun a i => (Nat.testBit_xor ..).symm).symm

/-! ## Bits gathered into a number -/

section
variable (p : Nat → Prop) [DecidablePred p]

/-- The number with the bits i < n set for which p i holds. -/
def gatherBits (n : Nat) : Nat := (List.range n).foldl (fun acc i => if p i then acc + 2 ^ i else acc) 0

theorem gatherBits_succ (n : Nat) : gatherBits p (n + 1) = if p n then 2 ^ n + gatherBits p n else gatherBits p n := by
  simp [gatherBits, List.range_succ, Nat.add_comm]

theorem gatherBits_lt (n : Nat) : gatherBits p n < 2 ^ n := by
  induction n with
  | zero => simp [gatherBits]
  | succ n ih => rw [gatherBits_succ, Nat.pow_succ]; split <;> omega

theorem testBit_gatherBits {n i : Nat} (hi : i < n) : (gatherBits p n).testBit i = decide (p i) := by
  induction n with
  | zero => omega
  | succ n ih =>
    rw [gatherBits_succ]
    obtain rfl | hlt := Nat.eq_or_lt_of_le (Nat.le_of_lt_succ hi)
    · have hclear : (gatherBits p i).testBit i = false := Nat.testBit_lt_two_pow (gatherBits_lt p i)
      by_cases hp : p i <;> simp [hp, hclear, Nat.testBit_two_pow_add_eq]
    · split
      · rw [Nat.testBit_two_pow_add_gt hlt, ih hlt]
      · exact ih hlt

end

/-! ## Rows, columns and the parity word (R192) -/

/-- Row i of a block is the 16-bit unit at bytes 2i and 2i + 1. -/
theorem leNat_rowBytes (d : BlockData) {i : Nat} (hi : i < 16) :
    leNat ((natLe 32 d.toNat).drop (2 * i) |>.take 2) = rowBits d i := by
  have hsplit : 32 = 2 * i + (2 + (30 - 2 * i)) := by omega
  have hpow : 256 ^ (2 * i) = 2 ^ (16 * i) := by rw [show 256 = 2 ^ 8 from rfl, ← Nat.pow_mul]; congr 1; omega
  rw [hsplit, drop_natLe, take_natLe, leNat_natLe, hpow, rowBits, bits, Nat.shiftRight_eq_div_pow,
    show 256 ^ 2 = 2 ^ 16 from rfl]

theorem testBit_rowBits (d : BlockData) (i : Nat) {j : Nat} (hj : j < 16) :
    (rowBits d i).testBit j = d.getLsbD (16 * i + j) := by
  rw [rowBits, bits, Nat.testBit_mod_two_pow, decide_eq_true hj, Bool.true_and, Nat.testBit_shiftRight, BitVec.getLsbD]

theorem rowParities_eq_gatherBits (d : BlockData) :
    rowParities d = BitVec.ofNat 16 (gatherBits (fun i => ones 16 (rowBits d i) % 2 = 1) 16) := rfl

theorem getLsbD_rowParities (d : BlockData) {i : Nat} (hi : i < 16) :
    (rowParities d).getLsbD i = lineParity 16 (fun j => d.getLsbD (16 * i + j)) := by
  rw [rowParities_eq_gatherBits, BitVec.getLsbD_ofNat, decide_eq_true hi, Bool.true_and, testBit_gatherBits _ hi,
    decide_ones_odd]
  exact lineParity_congr fun j hj => testBit_rowBits d i hj

theorem getLsbD_colParities (d : BlockData) {j : Nat} (hj : j < 16) :
    (colParities d).getLsbD j = lineParity 16 (fun i => d.getLsbD (16 * i + j)) := by
  rw [colParities, BitVec.getLsbD_ofNat, decide_eq_true hj, Bool.true_and, testBit_foldl_xor]
  exact lineParity_congr fun i _ => testBit_rowBits d i hj

theorem getLsbD_parityWord_row (d : BlockData) {i : Nat} (hi : i < 16) :
    (parityWord d).getLsbD i = (rowParities d).getLsbD i := by
  rw [parityWord, BitVec.getLsbD_append, if_pos hi]

theorem getLsbD_parityWord_col (d : BlockData) (j : Nat) :
    (parityWord d).getLsbD (16 + j) = (colParities d).getLsbD j := by
  rw [parityWord, BitVec.getLsbD_append, if_neg (by omega), Nat.add_sub_cancel_left]

/-! ## Blocks of all zeros and all ones -/

/-- Fewer than 28 set bits, and more than one of them among the row bits: no class of Table 7.1 but the last. -/
theorem decodeFull_of_two_rows {d : BlockData} {k : W32} (hfew : ones 32 (syndrome d k).toNat < 28)
    (hrows : 1 < ones 16 ((syndrome d k).toNat % 65536)) : decodeFull d k = .uncorrectable := by
  have hnone : ones 16 0 = 0 := rfl
  have hrow : (syndrome d k).toNat % 65536 ≠ 0 := fun h => by rw [h, hnone] at hrows; omega
  have hword : (syndrome d k).toNat ≠ 0 := fun h => hrow (by rw [h])
  have hmany : ones 16 ((syndrome d k).toNat % 65536) ≠ 1 := Nat.ne_of_gt hrows
  simp only [decodeFull, hword, hrow, Nat.not_le.2 hfew, hmany, false_and, if_false]

theorem syndrome_zeros : syndrome 0 0 = 0x5A5AA5A5 := by decide

theorem syndrome_ones : syndrome (BitVec.allOnes 256) (BitVec.allOnes 32) = 0xA5A55A5A := by decide

/-- Settles O18: the bits of the parity word are the parities of the rows and columns, and the syndromes of the two constant
blocks have eight row bits each. -/
theorem checkWordIsTheGridParity : Obligations.CheckWordIsTheGridParity := by
  unfold Obligations.CheckWordIsTheGridParity
  intro d x line
  refine ⟨?rows, ?rowParity, ?colParity, rfl, syndrome_zeros, syndrome_ones, ?zeros, ?ones⟩
  case rows => exact fun i hi j hj => by rw [leNat_rowBytes d hi, testBit_rowBits d i hj]
  case rowParity => exact fun i hi => (getLsbD_parityWord_row d hi).trans (getLsbD_rowParities d hi)
  case colParity => exact fun j hj => (getLsbD_parityWord_col d j).trans (getLsbD_colParities d hj)
  case zeros => exact decodeFull_of_two_rows (by rw [syndrome_zeros]; decide) (by rw [syndrome_zeros]; decide)
  case ones => exact decodeFull_of_two_rows (by rw [syndrome_ones]; decide) (by rw [syndrome_ones]; decide)

end Sys2Proof.Proofs

/-! PROOFS. O15: idle cores, retention, wakes and changes of rate (R57, R309, R405, R408-R413). -/

namespace Sys2Proof.Proofs

open Sys2Proof.Machine Sys2Proof.Laws

/-! ## The instructions' meanings -/

section
variable (s : State) (c : CoreId)

theorem exec_wait (ev : BitVec 3) (a b : BitVec 5) : exec (.wait c ev a b) s = execWait c ev a b s := rfl
theorem exec_idleRetentionTimer : exec (.idleRetentionTimer c) s = execIdleRetentionTimer c s := rfl
theorem exec_idleOffTimer : exec (.idleOffTimer c) s = execIdleOffTimer c s := rfl
theorem exec_coreWake : exec (.coreWake c) s = execCoreWake c s := rfl
theorem exec_clockSwitch : exec (.clockSwitch c) s = execClockSwitch c s := rfl
theorem exec_rateChange (q : Fin 17) : exec (.rateChange c q) s = execRateChange c q s := rfl
theorem exec_rateRecordEmit : exec (.rateRecordEmit c) s = execRateRecordEmit c s := rfl

end

/-! ## Retention and off (R405, R411) -/

section
variable (s : State) (c : CoreId)

theorem core_with_free (n : Nat) (x : CoreId) : ({ s with free := n } : State).core x = s.core x := rfl

theorem csUndef_core (a n : Nat) :
    (s.csUndef c a n).core c = { s.core c with undef := (a, n, s.free) :: cutRanges a n (s.core c).undef } :=
  setCore_core s c _

/-- Storing the core after bytes were left undefined: only the free value drawn remains of that step. -/
theorem csUndef_setCore (a n : Nat) (k : Core) :
    (s.csUndef c a n).setCore c k = { s.setCore c k with free := s.free + 1 } := by
  simp [State.csUndef, State.setCore]

theorem enterRetention_core : ∃ u, (enterRetention s c).core c = { s.core c with
    mode := .retention, modeSince := s.now, loopLocked := false, undef := u
    groups := (s.core c).groups.map Group.loseTiles } := by
  rw [enterRetention, modCore_eq, setCore_core, csUndef_core]
  exact ⟨_, rfl⟩

theorem enterRetention_core_ne (x : CoreId) (h : x ≠ c) : (enterRetention s c).core x = s.core x := by
  rw [enterRetention, modCore_eq, csUndef_setCore]
  exact setCore_core_ne s c x _ h

theorem enterRetention_frame :
    enterRetention s c = { s with cores := (enterRetention s c).cores, free := s.free + 1 } := rfl

theorem restTower_eq (t : TowerId) : restTower s t = { s with procs := (restTower s t).procs } := by
  unfold restTower
  split <;> rfl

theorem restTower_core (t : TowerId) (x : CoreId) : (restTower s t).core x = s.core x := by
  rw [restTower_eq]
  rfl

/-- Retention after ret_us in idle, of a core that keeps no work item (R411). -/
theorem execIdleRetentionTimer_of_due (hmode : (s.core c).mode = .idle) (hitem : (s.core c).item = none)
    (hsaved : (s.core c).saved = none) (hqueue : (s.core c).localQ = []) (hret : s.pwr.retUs ≠ 0)
    (hdue : (s.core c).modeSince + s.pwr.retUs.toNat * 1000 ≤ s.now) :
    execIdleRetentionTimer c s = .next (restTower (enterRetention s c) (towerOf c)) := by
  have hus : s.pwr.retUs.toNat ≠ 0 := BitVec.toNat_ne_iff_ne.2 hret
  rw [execIdleRetentionTimer, if_pos ⟨hmode, hitem, hsaved, List.isEmpty_iff.2 hqueue, hus, hdue⟩]

theorem execIdleRetentionTimer_of_not_due (h : s.pwr.retUs = 0 ∨ (s.core c).mode = .run ∨
    s.now < (s.core c).modeSince + s.pwr.retUs.toNat * 1000) : execIdleRetentionTimer c s = .next s := by
  rw [execIdleRetentionTimer, if_neg]
  rintro ⟨hmode, -, -, -, hus, hdue⟩
  rcases h with hret | hrun | hearly
  · exact hus (by rw [hret]; rfl)
  · exact CoreMode.noConfusion (hmode.symm.trans hrun)
  · omega

/-- A core that keeps a pre-empted work item stays in idle (R410). -/
theorem execIdleRetentionTimer_of_saved (h : (s.core c).saved.isSome = true) :
    execIdleRetentionTimer c s = .next s := by
  rw [execIdleRetentionTimer, if_neg]
  rintro ⟨-, -, hsaved, -⟩
  rw [hsaved] at h
  contradiction

/-- Off after off_ms in retention: the whole core store is lost (R405, R411). -/
theorem execIdleOffTimer_of_due (hmode : (s.core c).mode = .retention) (hitem : (s.core c).item = none)
    (hqueue : (s.core c).localQ = []) (hoff : s.pwr.offMs ≠ 0)
    (hdue : (s.core c).modeSince + s.pwr.offMs.toNat * 1000000 ≤ s.now) :
    ∃ u, execIdleOffTimer c s = .next { s.setCore c { s.core c with
      mode := .off, modeSince := s.now, undef := u } with free := s.free + 1 } := by
  have hms : s.pwr.offMs.toNat ≠ 0 := BitVec.toNat_ne_iff_ne.2 hoff
  rw [execIdleOffTimer, if_pos ⟨hmode, hitem, List.isEmpty_iff.2 hqueue, hms, hdue⟩, modCore_eq, csUndef_setCore,
    csUndef_core]
  exact ⟨_, rfl⟩

theorem execIdleOffTimer_of_not_due (h : s.pwr.offMs = 0 ∨ (s.core c).mode ≠ .retention) :
    execIdleOffTimer c s = .next s := by
  rw [execIdleOffTimer, if_neg]
  rintro ⟨hmode, -, -, hms, -⟩
  rcases h with hoff | hother
  · exact hms (by rw [hoff]; rfl)
  · exact hother hmode

end

/-! ## WAIT in mode 2 of a core that keeps a pre-empted work item (R408, R410) -/

section
variable {s : State} {c : CoreId}

/-- A core that keeps a pre-empted work item enters idle where retention is requested (R410). -/
theorem waitMode_of_saved {k : Core} (hsaved : k.saved.isSome = true) (hcode : k.coreMode = 2) : waitMode k = .idle := by
  rw [waitMode, if_pos hcode, if_pos hsaved]

theorem coreTime_with_wait (w : Waiting) : coreTime (s.setCore c { s.core c with wait := w }) c = coreTime s c := by
  simp [coreTime]

/-- The drain of a WAIT ends at once where nothing is outstanding (R408). -/
theorem settle_drainWait {k : Core} {ev : Nat} {x y : W64} (hwait : k.wait = .drainWait ev x y) (hstall : k.stalled = none)
    (hdrained : k.drained = true) (hmode : waitMode k ≠ .retention) :
    settle c (s.setCore c k) = s.setCore c { k with
      wait := .waiting ev x y, waitSince := s.now, waitTick := coreTime (s.setCore c k) c, mode := waitMode k
      modeSince := s.now } := by
  simp [settle, unstall_of_none k hstall, hwait, hdrained, hmode]

/-- A WAIT enters its mode at dispatch where nothing is outstanding. -/
theorem settle_core_drainWait {ev : Nat} {x y : W64} (hstall : (s.core c).stalled = none)
    (hdrained : (s.core c).drained = true) (hmode : waitMode (s.core c) ≠ .retention) :
    settle c (s.setCore c { s.core c with wait := .drainWait ev x y }) = s.setCore c { s.core c with
      wait := .waiting ev x y, waitSince := s.now, waitTick := coreTime s c, mode := waitMode (s.core c)
      modeSince := s.now } := by
  rw [← coreTime_with_wait (.drainWait ev x y)]
  exact settle_drainWait rfl hstall hdrained hmode

theorem execWait_of_saved {i : WorkItem} {ev : BitVec 3} {a b : BitVec 5} (hsaved : (s.core c).saved.isSome = true)
    (hcode : (s.core c).coreMode = 2) (hitem : (s.core c).item = some i) (hdisp : (s.core c).dispatching = true)
    (hflight : (s.core c).inflight = []) (hqueues : (s.core c).queues = []) (hev : ev.toNat < 3)
    (hsem : ev = 1 → semFails s i.partition ((s.core c).reg a) = none) :
    execWait c ev a b s = .next (s.setCore c { s.core c with
      wait := .waiting ev.toNat ((s.core c).reg a) ((s.core c).reg b), waitSince := s.now, waitTick := coreTime s c
      modeSince := s.now, mode := .idle }) := by
  obtain ⟨-, -, hstall, -, -⟩ := (dispatching_iff _).1 hdisp
  have hnamed : (if ev = 1 then semFails s (s.core c).partOf ((s.core c).reg a) else none) = none := by
    rw [Core.partOf, hitem]
    exact ite_eq_right_iff.2 hsem
  have hmode : waitMode (s.core c) = .idle := waitMode_of_saved hsaved hcode
  have hdrained : (s.core c).drained = true := by simp [Core.drained, hflight, hqueues, hstall]
  rw [execWait, dispatch_next c s _ hdisp]
  simp only [Nat.not_le.2 hev, if_false, hnamed]
  rw [settle_core_drainWait hstall hdrained (by rw [hmode]; decide), hmode]

end

/-! ## Changes of an island's rate (R57, R309) -/

@[simp] theorem log_core (s : State) (ev : Ev) (src : Source) (l : W64) (st : BitVec 16) (o : Owner) (d : List W64)
    (x : CoreId) : (s.log ev src l st o d).core x = s.core x := rfl

/-- What a change of a core's rate to that of the core `k` leaves: `k` but for its counter and the record it owes, the other
cores as they were, and records. -/
structure RateChanged (s : State) (c : CoreId) (k : Core) (t : State) : Prop where
  core : ∃ base since n first last, t.core c =
    { k with tickBase := base, tickSince := since, rateChanges := n, rateFirst := first, lastRate := last }
  others : ∀ x : CoreId, x ≠ c → t.core x = s.core x
  frame : t = { s with cores := t.cores, err := t.err }

section
variable {s : State} {c : CoreId}

theorem emitRate_of_owed (h : (s.core c).rateChanges ≠ 0) :
    emitRate s c = (s.setCore c { s.core c with rateChanges := 0, lastRate := some s.now }).log
      { code := Config.syncCode 3, severity := 0 } (srcCore c) 0 0 none
      [w64 (s.core c).rateFirst, w64 (s.core c).q, w64 (s.core c).rateChanges] := by
  rw [emitRate, if_neg h]

/-- A record that is emitted ends the change as one that is held back does. -/
theorem RateChanged.emit {k : Core} {t : State} (h : RateChanged s c k t) (howed : (t.core c).rateChanges ≠ 0) :
    RateChanged s c k (emitRate t c) := by
  obtain ⟨⟨base, since, n, first, last, hcore⟩, hothers, hframe⟩ := h
  rw [emitRate_of_owed howed]
  refine ⟨⟨base, since, 0, first, some t.now, ?core⟩, fun x hx => ?others, ?frame⟩
  case core => rw [log_core, setCore_core, hcore]
  case others => rw [log_core, setCore_core_ne t c x _ hx, hothers x hx]
  case frame =>
    rw [hframe]
    rfl

theorem RateChanged.emit_of_due {k : Core} {t : State} (h : RateChanged s c k t) (howed : (t.core c).rateChanges ≠ 0) :
    RateChanged s c k (if rateDue (t.core c) t.now then emitRate t c else t) := by
  split
  case isTrue => exact h.emit howed
  case isFalse => exact h

theorem changeRate_rateChanged {k : Core} (f : Core → Core) (hf : f (s.core c) = k) :
    RateChanged s c k (changeRate s c f) := by
  subst hf
  exact RateChanged.emit_of_due ⟨⟨_, _, _, _, _, setCore_core s c _⟩, fun x hx => setCore_core_ne s c x _ hx, rfl⟩
    (by rw [setCore_core]; exact Nat.succ_ne_zero _)

end

/-! ## Wakes, the switch to the loop and RATE_CHANGE (R57, R411-R413) -/

section
variable {s : State} {c : CoreId}

/-- A core that no work item runs on, as it wakes on the internal oscillator (R412). -/
def wokenIdle (k : Core) (now : Nat) : Core :=
  { k with mode := .run, modeSince := now, onLoop := false, loopLocked := false, clkLoop := false }

theorem wakeCore_rateChanged (hitem : (s.core c).item = none) :
    RateChanged s c (wokenIdle (s.core c) s.now) (wakeCore s c) :=
  changeRate_rateChanged _ (by simp [hitem, wokenIdle])

theorem execCoreWake_of_queued {i : WorkItem} {rest : List WorkItem}
    (hmode : (s.core c).mode = .retention ∨ (s.core c).mode = .off) (hwait : (s.core c).wait = .none)
    (hqueue : (s.core c).localQ = i :: rest) : execCoreWake c s = .next (wakeCore s c) := by
  simp [execCoreWake, hmode, hwait, hqueue]

theorem execCoreWake_of_run (hmode : (s.core c).mode = .run) : execCoreWake c s = .next s := by
  simp [execCoreWake, hmode]

theorem execClockSwitch_of_loop (hosc : (s.core c).onLoop = false) (hmode : (s.core c).mode = .run)
    (hloop : (s.core c).clkLoop = true) (hrail : capCeiling s c ≤ supportedQ (s.stage (stageOf (towerOf c))).setpoint) :
    execClockSwitch c s = .next (changeRate s c (fun k => { k with loopLocked := true, onLoop := true })) := by
  simp [execClockSwitch, hosc, hmode, hloop, hrail]

theorem execClockSwitch_of_oscillator (hosc : (s.core c).onLoop = false) (hmode : (s.core c).mode = .run)
    (hloop : (s.core c).clkLoop = false) :
    execClockSwitch c s = .next (s.setCore c { s.core c with loopLocked := true }) := by
  simp [execClockSwitch, hosc, hmode, hloop]

/-- A rate already in force is no change (R57). -/
theorem setRate_rateChanged (q : Nat) :
    RateChanged s c { s.core c with q := Nat.min q (qLimit s c) } (setRate s c q) := by
  simp only [setRate]
  split
  case isTrue hsame =>
    exact ⟨⟨_, _, _, _, _, by rw [← hsame]⟩, fun _ _ => rfl, rfl⟩
  case isFalse => exact changeRate_rateChanged _ rfl

theorem execRateChange_of_run {q : Fin 17} (hmode : (s.core c).mode = .run) (hq : 4 ≤ q.val) :
    execRateChange c q s = .next (setRate s c q.val) := by
  simp [execRateChange, hmode, hq]

theorem execRateChange_of_low {q : Fin 17} (hq : q.val < 4) : execRateChange c q s = .next s := by
  rw [execRateChange, if_neg fun h => Nat.not_le.2 hq h.1]

theorem execRateRecordEmit_of_first (hlast : (s.core c).lastRate = none) :
    execRateRecordEmit c s = .next (emitRate s c) := by
  rw [execRateRecordEmit, rateDue, hlast, if_pos rfl]

end

/-- Settles O15: each timer, wake and change of rate by what its command does when it is due and when it is not. -/
theorem idleCoresSleepAndWake : Obligations.IdleCoresSleepAndWake := by
  unfold Obligations.IdleCoresSleepAndWake
  intro s c q i rest k slept
  refine ⟨?retention, ?retentionEarly, ?retentionSaved, ?wait, ?off, ?offNot, ?wake, ?wakeRun, ?loop, ?oscillator,
    ?rate, ?rateLow, ?record⟩
  case retention =>
    intro hmode hitem hsaved hqueue hret hdue
    refine ⟨_, (exec_idleRetentionTimer s c).trans
      (execIdleRetentionTimer_of_due s c hmode hitem hsaved hqueue hret hdue), ?_⟩
    obtain ⟨u, hcore⟩ := enterRetention_core s c
    rw [restTower_core, hcore]
    refine ⟨rfl, rfl, rfl, rfl, rfl, fun x hx => ?_, ?_⟩
    · rw [restTower_core, enterRetention_core_ne s c x hx]
    · rw [restTower_eq, enterRetention_frame]
  case retentionEarly => exact fun h => (exec_idleRetentionTimer s c).trans (execIdleRetentionTimer_of_not_due s c h)
  case retentionSaved => exact fun h => (exec_idleRetentionTimer s c).trans (execIdleRetentionTimer_of_saved s c h)
  case wait =>
    intro hsaved hcode hitem hdisp hflight hqueues ev a b hev hsem
    exact (exec_wait s c ev a b).trans (execWait_of_saved hsaved hcode hitem hdisp hflight hqueues hev hsem)
  case off =>
    intro hmode hitem hqueue hoff hdue
    obtain ⟨u, hu⟩ := execIdleOffTimer_of_due s c hmode hitem hqueue hoff hdue
    refine ⟨_, (exec_idleOffTimer s c).trans hu, ?_⟩
    simp only [core_with_free, setCore_core, k]
  case offNot => exact fun h => (exec_idleOffTimer s c).trans (execIdleOffTimer_of_not_due s c h)
  case wake =>
    intro hmode hitem hwait hqueue
    obtain ⟨⟨_, _, _, _, _, hcore⟩, hothers, hframe⟩ := wakeCore_rateChanged hitem
    refine ⟨_, (exec_coreWake s c).trans (execCoreWake_of_queued hmode hwait hqueue), ?_⟩
    rw [hcore]
    exact ⟨rfl, rfl, rfl, rfl, rfl, hothers, hframe⟩
  case wakeRun => exact fun h => (exec_coreWake s c).trans (execCoreWake_of_run h)
  case loop =>
    intro hosc hmode hloop hrail
    obtain ⟨⟨_, _, _, _, _, hcore⟩, hothers, hframe⟩ := changeRate_rateChanged (s := s) (c := c)
      (fun k => { k with loopLocked := true, onLoop := true }) rfl
    refine ⟨_, (exec_clockSwitch s c).trans (execClockSwitch_of_loop hosc hmode hloop hrail), ?_⟩
    rw [hcore]
    exact ⟨rfl, rfl, rfl, hothers, hframe⟩
  case oscillator =>
    exact fun hosc hmode hloop => (exec_clockSwitch s c).trans (execClockSwitch_of_oscillator hosc hmode hloop)
  case rate =>
    intro hmode hq
    obtain ⟨⟨_, _, _, _, _, hcore⟩, hothers, hframe⟩ := setRate_rateChanged (s := s) (c := c) q.val
    refine ⟨_, (exec_rateChange s c q).trans (execRateChange_of_run hmode hq), ?_⟩
    rw [hcore]
    exact ⟨rfl, hothers, hframe⟩
  case rateLow => exact fun hq => (exec_rateChange s c q).trans (execRateChange_of_low hq)
  case record =>
    intro howed hlast
    rw [exec_rateRecordEmit, execRateRecordEmit_of_first hlast, emitRate_of_owed howed]
    rfl

end Sys2Proof.Proofs
